-- ==== Sys2Proof/Word.lean ====
section
/-! DEFINITION. The bit widths of the GS24's values (spec 01, R1 to R3, R8). -/
namespace Sys2Proof

/-- One byte of a record, a body or a transfer. -/
abbrev Byte := BitVec 8
/-- A station number as the frame header carries it (R4); 1 to 62 are stations, 63 addresses every station. -/
abbrev Station := BitVec 6
/-- A tag (R1, R65). -/
abbrev Tag := BitVec 16
/-- A business day 0 to 65,535 (R1). -/
abbrev Day := BitVec 16
/-- A check code (R3). -/
abbrev Check := BitVec 16
/-- A hold id: hold table index (8 bits), then hold generation (8 bits) (R1, R42). -/
abbrev HoldId := BitVec 16
/-- A 3-byte amount field (R1). -/
abbrev Amount := BitVec 24
/-- A 40-bit card number (R2). -/
abbrev CardNo := BitVec 40
/-- A set of stations, bit s for station s (R11: membership map). -/
abbrev StationSet := BitVec 64
/-- A figure sum, a payout, a fee, a net or a line: signed 48-bit two's complement (R1). -/
abbrev Sum48 := BitVec 48
/-- A sparse table: (index, value) pairs, indices strictly rising. -/
abbrev Table (α : Type) := List (Nat × α)

end Sys2Proof
end

