-- ==== Sys2Proof/Syntax.lean ====
section
/-! DEFINITION. The commands of the GS24, one constructor of Instr for each row of spec/opcode_table.json, and the coded
values and frame bodies their operands are made of (spec 01). -/
namespace Sys2Proof

/-- The reason codes of R14; `code` in Decode gives the byte. -/
inductive Reason where
  | none | mall | state | stale | check | expired | funds | full | held | ceiling | aged | unknown | over | late
  | degraded | amount | noHome | slots | lineBusy | noSlot | pending | notJoined | storeFault | day | index | station
  | cardLimit | stationCap | queueFull
  deriving DecidableEq, Repr

/-- The reported card states of R7: EXPIRED is reported, never stored. -/
inductive CardState where
  | unissued | active | frozen | closed | expired
  deriving DecidableEq, Repr

/-- The origin of a deferred entry (R87); on the line a POST carries OFFLINE or LATE (R7). -/
inductive Origin where
  | none | offline | late
  deriving DecidableEq, Repr

/-- The tag result of a BALANCE (R7). -/
inductive TagResult where
  | notAsked | foundLoad | foundReturn | notFound
  deriving DecidableEq, Repr

/-- One figure of a pair-table line: a count modulo 65,536 and a signed 48-bit sum (R8, R139). -/
structure Figure where
  count : BitVec 16
  sum : Sum48
  deriving DecidableEq, Repr

/-- A pair-table line, and the figure block that carries it: the six figures of R8 in their order. -/
structure PairLine where
  homeRed : Figure
  homeRet : Figure
  homeLoad : Figure
  actRed : Figure
  actRet : Figure
  actLoad : Figure
  deriving DecidableEq, Repr

/-- The body of a concourse frame, one constructor for each message kind of R6, in R6's order. -/
inductive Body where
  | hold (tag : Tag) (card : CardNo) (check : Check) (amount : Amount) (split : Bool)
  | claim (tag : Tag) (card : CardNo) (holdId : HoldId) (amount : Amount) (retry : Bool)
  | drop (tag : Tag) (holdId : HoldId)
  | post (tag : Tag) (card : CardNo) (check : Check) (amount : Amount) (day : Day) (origin : Origin)
  | load (tag : Tag) (card : CardNo) (check : Check) (amount : Amount)
  | ret (newTag : Tag) (card : CardNo) (origTag : Tag) (amount : Amount)
  | inquire (tag : Tag) (card : CardNo) (check : Check) (asked : Option Tag)
  | stall (tag : Tag)
  | holdOk (tag : Tag) (holdId : HoldId) (grant available : Amount) (isPartial : Bool)
  | holdNo (tag : Tag) (reason : Reason) (available : Amount)
  | claimOk (tag : Tag) (amount : Amount) (day : Day) (duplicate : Bool)
  | claimNo (tag : Tag) (reason : Reason)
  | postOk (tag : Tag) (taken shortfall : Amount) (reason : Reason) (day : Day) (duplicate : Bool)
  | postNo (tag : Tag) (reason : Reason)
  | loadOk (tag : Tag) (balance : Amount) (day : Day) (duplicate : Bool)
  | loadNo (tag : Tag) (reason : Reason)
  | returnOk (tag : Tag) (balance : Amount) (day : Day)
  | returnNo (tag : Tag) (reason : Reason)
  | balance (tag : Tag) (state : CardState) (balance available : Amount) (result : TagResult)
  | inquireNo (tag : Tag) (reason : Reason)
  | tallyOpen (day : Day)
  | tally (day : Day) (block : PairLine)
  deriving DecidableEq, Repr

/-- A complete frame as a receiver has counted it off the line: header fields, body bytes and CRC (R4). -/
structure RawFrame where
  cls : BitVec 2
  ordinary : Bool
  src : Station
  dst : Station
  kind : BitVec 5
  len : BitVec 6
  body : List Byte
  crc : BitVec 16
  deriving DecidableEq, Repr

/-- The 40 parameter bytes of CONFIGURE, field by field in the order of R11. -/
structure ConfigParams where
  present : BitVec 16
  station : Byte
  mall : BitVec 16
  seed : BitVec 32
  members : StationSet
  lineRate : Byte
  feeRate : BitVec 16
  holdLife : BitVec 16
  window : BitVec 16
  waitMode : Byte
  cardLimit : Amount
  stationCap : Amount
  ceiling : Amount
  quiet : Byte
  tally : Byte
  divisor : BitVec 16
  startDay : Day
  deriving DecidableEq, Repr

/-- The commands: one constructor for each row of spec/opcode_table.json, in its order. A till command carries its
sequence number and the parameters of R11; a received frame its source, destination and body fields (R4, R6); a step of
the block's own names the entry, slot or home it is about, where there are several. -/
inductive Instr where
  | configure (seq : Byte) (p : ConfigParams)
  | join (seq : Byte)
  | reset (seq : Byte)
  | status (seq : Byte)
  | malformed (code seq : Byte) (params : List Byte)
  | sell (seq : Byte) (amount : Amount) (expiry : Option Day)
  | close (seq : Byte) (card : CardNo)
  | freeze (seq : Byte) (card : CardNo)
  | unfreeze (seq : Byte) (card : CardNo)
  | load (seq : Byte) (card : CardNo) (check : Check) (amount : Amount)
  | redeem (seq : Byte) (card : CardNo) (check : Check) (amount : Amount) (split offline : Bool)
  | confirm (seq : Byte) (tag : Tag) (amount : Amount)
  | cancel (seq : Byte) (tag : Tag)
  | returnCard (seq : Byte) (card : CardNo) (origTag : Tag) (amount : Amount)
  | inquire (seq : Byte) (card : CardNo) (check : Check) (asked : Option Tag)
  | settle (seq : Byte) (day : Day)
  | recount (seq : Byte)
  | readCard (seq : Byte) (serial : BitVec 16)
  | readCaplog (seq : Byte) (position : BitVec 16)
  | readDeferred (seq : Byte) (position : Byte)
  | readPayout (seq : Byte) (index : Byte)
  | takeNotice (seq : Byte)
  | readEvents (seq : Byte)
  | clearEvents (seq : Byte) (events : Byte)
  | setMask (seq : Byte) (mask : Byte) (allMask : Bool)
  | powerUp
  | powerFailure
  | resetInputAssert
  | resetInputRelease
  | reload
  | homeOperationTake
  | localRequestTake
  | hold
  | claim
  | drop
  | post
  | loadFrame
  | returnFrame
  | inquireFrame
  | slotOpening
  | dqReturnTake
  | receiveQueueEntry (frame : RawFrame)
  | bodyLengthDiscard
  | stall (src dst : Station) (tag : Tag)
  | holdOk (src dst : Station) (tag : Tag) (holdId : HoldId) (grant available : Amount) (isPartial : Bool)
  | holdNo (src dst : Station) (tag : Tag) (reason : Reason) (available : Amount)
  | claimOk (src dst : Station) (tag : Tag) (amount : Amount) (day : Day) (duplicate : Bool)
  | claimNo (src dst : Station) (tag : Tag) (reason : Reason)
  | postOk (src dst : Station) (tag : Tag) (taken shortfall : Amount) (reason : Reason) (day : Day) (duplicate : Bool)
  | postNo (src dst : Station) (tag : Tag) (reason : Reason)
  | loadOk (src dst : Station) (tag : Tag) (balance : Amount) (day : Day) (duplicate : Bool)
  | loadNo (src dst : Station) (tag : Tag) (reason : Reason)
  | returnOk (src dst : Station) (tag : Tag) (balance : Amount) (day : Day)
  | returnNo (src dst : Station) (tag : Tag) (reason : Reason)
  | balance (src dst : Station) (tag : Tag) (state : CardState) (balance available : Amount) (result : TagResult)
  | inquireNo (src dst : Station) (tag : Tag) (reason : Reason)
  | tallyOpen (src dst : Station) (day : Day)
  | tally (src dst : Station) (day : Day) (block : PairLine)
  | frameStart
  | arbitrationLost
  | bodyClash
  | frameSentWhole
  | idleGap
  | stuckTimerExpiry
  | holdExpiry (entry : Fin 256)
  | replyWindowExpiry (slot : Fin 32)
  | slotHoldExpiry (slot : Fin 32)
  | dqWindowExpiry
  | backoffExpiry (home : Station)
  | quietTimerExpiry
  | tallyTimerExpiry
  | storeFault
  | writeCompletion
  | computationCompletion
  | offlineDecision (slot : Fin 32)
  | slotDeferredEntry (slot : Fin 32)
  | actorFiling (slot : Fin 32)
  | noticeEntry
  | forwarderChoice
  | dqPendingStep
  | roundOpening
  | tallyOpenEntry
  | tallyStep
  | receptionStep
  | cutShortStep
  | payoutRecord
  | startSymbol
  deriving DecidableEq, Repr

end Sys2Proof
end

