-- ==== Sys2Proof/Decode.lean ====
section
/-! DEFINITION. The formats of spec 01: field encodings (R1), card numbers (R2), the check-code register (R3), frames
(R4 to R7, R9), figure blocks (R8), command records (R10, R11) and reason codes (R14); and `decodeTableWord`. -/
namespace Sys2Proof

/-! ### Fields (R1) -/

/-- The n bytes of a field, most significant byte first (R1). -/
def bytesOf : Nat → Nat → List Byte
  | 0, _ => []
  | n + 1, v => BitVec.ofNat 8 (v / 256 ^ n) :: bytesOf n v

/-- The value of a run of bytes, most significant byte first (R1). -/
def natOf : List Byte → Nat
  | [] => 0
  | b :: bs => b.toNat * 256 ^ bs.length + natOf bs

/-- The value of the n-byte field that starts at byte i. -/
def fieldAt (bs : List Byte) (i n : Nat) : Nat := natOf ((bs.drop i).take n)

/-- A one-bit flag as a byte with only bit 0 defined (R1). -/
def flagByte (b : Bool) : Byte := if b then 1 else 0

/-- The n bits of a value, most significant bit first (R1). -/
def bitsOf : Nat → Nat → List Bool
  | 0, _ => []
  | n + 1, v => v.testBit n :: bitsOf n v

/-! ### Card number and check code (R2, R3) -/

/-- Mall code of a card number, bits 39..24 (R2). -/
def cardMall (c : CardNo) : BitVec 16 := c.extractLsb' 24 16
/-- Home station of a card number, bits 23..18 (R2). -/
def cardHome (c : CardNo) : Station := c.extractLsb' 18 6
/-- Serial of a card number, bits 17..5 (R2). -/
def cardSerial (c : CardNo) : Nat := (c.extractLsb' 5 13).toNat
/-- Generation of a card number, bits 4..0 (R2). -/
def cardGen (c : CardNo) : BitVec 5 := c.extractLsb' 0 5
/-- The card number with these fields (R2). -/
def makeCard (mall : BitVec 16) (home : Station) (serial : Nat) (gen : BitVec 5) : CardNo :=
  mall ++ home ++ BitVec.ofNat 13 serial ++ gen

/-- One input bit into the 16-bit register of R3. -/
def crcBit (r : BitVec 16) (b : Bool) : BitVec 16 :=
  if r.msb != b then (r <<< 1) ^^^ 0x1021 else r <<< 1

/-- The register of R3 after these bits, starting from 0xFFFF. -/
def crcOf (bits : List Bool) : BitVec 16 := bits.foldl crcBit 0xFFFF

/-- The bits of a run of bytes in the order taken, most significant first (R3). -/
def bitsOfBytes (bs : List Byte) : List Bool := bs.flatMap fun b => bitsOf 8 b.toNat

/-- The check code of a card number under an issue seed (R3): 5 card bytes, then 4 seed bytes. -/
def checkCode (card : CardNo) (seed : BitVec 32) : Check :=
  crcOf (bitsOfBytes (bytesOf 5 card.toNat ++ bytesOf 4 seed.toNat))

/-! ### Coded fields (R7, R14) -/

/-- The byte of a reason (R14). -/
def reasonCode : Reason → Byte
  | .none => 0 | .mall => 1 | .state => 2 | .stale => 3 | .check => 4 | .expired => 5 | .funds => 6 | .full => 7
  | .held => 8 | .ceiling => 9 | .aged => 10 | .unknown => 11 | .over => 12 | .late => 13 | .degraded => 14
  | .amount => 15 | .noHome => 16 | .slots => 17 | .lineBusy => 18 | .noSlot => 19 | .pending => 20 | .notJoined => 21
  | .storeFault => 22 | .day => 23 | .index => 24 | .station => 25 | .cardLimit => 26 | .stationCap => 27
  | .queueFull => 28

/-- The reasons, in the order of their codes (R14). -/
def reasons : List Reason :=
  [.none, .mall, .state, .stale, .check, .expired, .funds, .full, .held, .ceiling, .aged, .unknown, .over, .late,
   .degraded, .amount, .noHome, .slots, .lineBusy, .noSlot, .pending, .notJoined, .storeFault, .day, .index, .station,
   .cardLimit, .stationCap, .queueFull]

/-- The reasons that may appear in a frame body: codes 0 to 15 but HELD (R14). -/
def lineReason (r : Reason) : Bool := decide ((reasonCode r).toNat ≤ 15) && decide (r ≠ .held)

/-- A received reason byte: a reason marked as carried on the line, or nothing (R7, R9). -/
def lineReasonOf (v : Nat) : Option Reason := (reasons[v]?).filter lineReason

/-- The byte of a card state (R7). -/
def cardStateCode : CardState → Byte
  | .unissued => 0 | .active => 1 | .frozen => 2 | .closed => 3 | .expired => 4

/-- The card state of a received byte (R7, R9). -/
def cardStateOf (v : Nat) : Option CardState := [CardState.unissued, .active, .frozen, .closed, .expired][v]?

/-- The byte of a tag result (R7). -/
def tagResultCode : TagResult → Byte
  | .notAsked => 0 | .foundLoad => 1 | .foundReturn => 2 | .notFound => 3

/-- The tag result of a received byte (R7, R9). -/
def tagResultOf (v : Nat) : Option TagResult := [TagResult.notAsked, .foundLoad, .foundReturn, .notFound][v]?

/-- The byte of an origin: 0 none in a till record, 1 OFFLINE, 2 LATE (R7, R12). -/
def originCode : Origin → Byte
  | .none => 0 | .offline => 1 | .late => 2

/-- The origin of a received POST: 1 OFFLINE or 2 LATE (R7, R9). -/
def originOf (v : Nat) : Option Origin := if v = 1 then some .offline else if v = 2 then some .late else none

/-! ### Figure blocks (R8) -/

/-- The 8 bytes of a figure (R8). -/
def figureBytes (f : Figure) : List Byte := bytesOf 2 f.count.toNat ++ bytesOf 6 f.sum.toNat

/-- The figure whose 8 bytes start at byte i. -/
def figureAt (bs : List Byte) (i : Nat) : Figure :=
  ⟨BitVec.ofNat 16 (fieldAt bs i 2), BitVec.ofNat 48 (fieldAt bs (i + 2) 6)⟩

/-- The 48 bytes of a figure block, in the order of R8. -/
def blockBytes (l : PairLine) : List Byte :=
  figureBytes l.homeRed ++ figureBytes l.homeRet ++ figureBytes l.homeLoad ++ figureBytes l.actRed ++
    figureBytes l.actRet ++ figureBytes l.actLoad

/-- The figure block whose 48 bytes start at byte i. -/
def blockAt (bs : List Byte) (i : Nat) : PairLine :=
  ⟨figureAt bs i, figureAt bs (i + 8), figureAt bs (i + 16), figureAt bs (i + 24), figureAt bs (i + 32),
   figureAt bs (i + 40)⟩

/-! ### Message kinds (R6) -/

/-- The kind number of a body (R6). -/
def bodyKind : Body → BitVec 5
  | .hold .. => 1 | .claim .. => 2 | .drop .. => 3 | .post .. => 4 | .load .. => 5 | .ret .. => 6 | .inquire .. => 7
  | .stall .. => 8 | .holdOk .. => 9 | .holdNo .. => 10 | .claimOk .. => 11 | .claimNo .. => 12 | .postOk .. => 13
  | .postNo .. => 14 | .loadOk .. => 15 | .loadNo .. => 16 | .returnOk .. => 17 | .returnNo .. => 18
  | .balance .. => 19 | .inquireNo .. => 20 | .tallyOpen .. => 24 | .tally .. => 25

/-- The body bytes of a kind, in the order of R6; undefined flag bits are sent as 0 (R1). -/
def bodyBytes : Body → List Byte
  | .hold t c k a f => bytesOf 2 t.toNat ++ bytesOf 5 c.toNat ++ bytesOf 2 k.toNat ++ bytesOf 3 a.toNat ++ [flagByte f]
  | .claim t c h a f => bytesOf 2 t.toNat ++ bytesOf 5 c.toNat ++ bytesOf 2 h.toNat ++ bytesOf 3 a.toNat ++ [flagByte f]
  | .drop t h => bytesOf 2 t.toNat ++ bytesOf 2 h.toNat
  | .post t c k a d o =>
    bytesOf 2 t.toNat ++ bytesOf 5 c.toNat ++ bytesOf 2 k.toNat ++ bytesOf 3 a.toNat ++ bytesOf 2 d.toNat ++ [originCode o]
  | .load t c k a => bytesOf 2 t.toNat ++ bytesOf 5 c.toNat ++ bytesOf 2 k.toNat ++ bytesOf 3 a.toNat
  | .ret t c o a => bytesOf 2 t.toNat ++ bytesOf 5 c.toNat ++ bytesOf 2 o.toNat ++ bytesOf 3 a.toNat
  | .inquire t c k none => bytesOf 2 t.toNat ++ bytesOf 5 c.toNat ++ bytesOf 2 k.toNat
  | .inquire t c k (some q) => bytesOf 2 t.toNat ++ bytesOf 5 c.toNat ++ bytesOf 2 k.toNat ++ bytesOf 2 q.toNat
  | .stall t => bytesOf 2 t.toNat
  | .holdOk t h g a f => bytesOf 2 t.toNat ++ bytesOf 2 h.toNat ++ bytesOf 3 g.toNat ++ bytesOf 3 a.toNat ++ [flagByte f]
  | .holdNo t r a => bytesOf 2 t.toNat ++ [reasonCode r] ++ bytesOf 3 a.toNat
  | .claimOk t a d f => bytesOf 2 t.toNat ++ bytesOf 3 a.toNat ++ bytesOf 2 d.toNat ++ [flagByte f]
  | .claimNo t r => bytesOf 2 t.toNat ++ [reasonCode r]
  | .postOk t k x r d f =>
    bytesOf 2 t.toNat ++ bytesOf 3 k.toNat ++ bytesOf 3 x.toNat ++ [reasonCode r] ++ bytesOf 2 d.toNat ++ [flagByte f]
  | .postNo t r => bytesOf 2 t.toNat ++ [reasonCode r]
  | .loadOk t b d f => bytesOf 2 t.toNat ++ bytesOf 3 b.toNat ++ bytesOf 2 d.toNat ++ [flagByte f]
  | .loadNo t r => bytesOf 2 t.toNat ++ [reasonCode r]
  | .returnOk t b d => bytesOf 2 t.toNat ++ bytesOf 3 b.toNat ++ bytesOf 2 d.toNat
  | .returnNo t r => bytesOf 2 t.toNat ++ [reasonCode r]
  | .balance t s b a q =>
    bytesOf 2 t.toNat ++ [cardStateCode s] ++ bytesOf 3 b.toNat ++ bytesOf 3 a.toNat ++ [tagResultCode q]
  | .inquireNo t r => bytesOf 2 t.toNat ++ [reasonCode r]
  | .tallyOpen d => bytesOf 2 d.toNat
  | .tally d l => bytesOf 2 d.toNat ++ blockBytes l

/-- The body of a received kind from its bytes: the length R6 gives, and every coded field defined (R9). Undefined flag
bits are ignored (R1, R9). -/
def decodeBody (kind : BitVec 5) (bs : List Byte) : Option Body :=
  let n := bs.length
  let tag : Tag := BitVec.ofNat 16 (fieldAt bs 0 2)
  let card : CardNo := BitVec.ofNat 40 (fieldAt bs 2 5)
  let w (i : Nat) : BitVec 16 := BitVec.ofNat 16 (fieldAt bs i 2)
  let a (i : Nat) : Amount := BitVec.ofNat 24 (fieldAt bs i 3)
  let flag (i : Nat) : Bool := (fieldAt bs i 1).testBit 0
  match kind.toNat with
  | 1 => if n = 13 then some (.hold tag card (w 7) (a 9) (flag 12)) else none
  | 2 => if n = 13 then some (.claim tag card (w 7) (a 9) (flag 12)) else none
  | 3 => if n = 4 then some (.drop tag (w 2)) else none
  | 4 => if n = 15 then (originOf (fieldAt bs 14 1)).map (.post tag card (w 7) (a 9) (w 12)) else none
  | 5 => if n = 12 then some (.load tag card (w 7) (a 9)) else none
  | 6 => if n = 12 then some (.ret tag card (w 7) (a 9)) else none
  | 7 => if n = 9 then some (.inquire tag card (w 7) none)
         else if n = 11 then some (.inquire tag card (w 7) (some (w 9))) else none
  | 8 => if n = 2 then some (.stall tag) else none
  | 9 => if n = 11 then some (.holdOk tag (w 2) (a 4) (a 7) (flag 10)) else none
  | 10 => if n = 6 then (lineReasonOf (fieldAt bs 2 1)).map (fun r => .holdNo tag r (a 3)) else none
  | 11 => if n = 8 then some (.claimOk tag (a 2) (w 5) (flag 7)) else none
  | 12 => if n = 3 then (lineReasonOf (fieldAt bs 2 1)).map (.claimNo tag) else none
  | 13 => if n = 12 then (lineReasonOf (fieldAt bs 8 1)).map (fun r => .postOk tag (a 2) (a 5) r (w 9) (flag 11)) else none
  | 14 => if n = 3 then (lineReasonOf (fieldAt bs 2 1)).map (.postNo tag) else none
  | 15 => if n = 8 then some (.loadOk tag (a 2) (w 5) (flag 7)) else none
  | 16 => if n = 3 then (lineReasonOf (fieldAt bs 2 1)).map (.loadNo tag) else none
  | 17 => if n = 7 then some (.returnOk tag (a 2) (w 5)) else none
  | 18 => if n = 3 then (lineReasonOf (fieldAt bs 2 1)).map (.returnNo tag) else none
  | 19 => if n = 10 then
      (cardStateOf (fieldAt bs 2 1)).bind fun s => (tagResultOf (fieldAt bs 9 1)).map (.balance tag s (a 3) (a 6))
    else none
  | 20 => if n = 3 then (lineReasonOf (fieldAt bs 2 1)).map (.inquireNo tag) else none
  | 24 => if n = 2 then some (.tallyOpen tag) else none
  | 25 => if n = 50 then some (.tally tag (blockAt bs 2)) else none
  | _ => none

/-! ### Frames (R4, R5, R9) -/

/-- The 26 header bits of a frame in the order sent (R4). -/
def headerBits (f : RawFrame) : List Bool :=
  bitsOf 2 f.cls.toNat ++ [f.ordinary] ++ bitsOf 6 f.src.toNat ++ bitsOf 6 f.dst.toNat ++ bitsOf 5 f.kind.toNat ++
    bitsOf 6 f.len.toNat

/-- The CRC of a frame's header and body (R5). -/
def frameCrc (f : RawFrame) : BitVec 16 := crcOf (headerBits f ++ bitsOfBytes f.body)

/-- The frame that carries a body: class, ordinary bit, source, destination, kind, length, CRC (R4 to R6). -/
def makeFrame (cls : BitVec 2) (ordinary : Bool) (src dst : Station) (b : Body) : RawFrame :=
  let f : RawFrame := ⟨cls, ordinary, src, dst, bodyKind b, BitVec.ofNat 6 (bodyBytes b).length, bodyBytes b, 0⟩
  { f with crc := frameCrc f }

/-- The bits a frame takes on the line from its start symbol (dominant, 0) to its last CRC bit (R4). -/
def frameBits (f : RawFrame) : List Bool :=
  false :: (headerBits f ++ bitsOfBytes f.body ++ bitsOf 16 f.crc.toNat)

/-- A station number that may stand as a source or as an addressed station: 1 to 62 (R4, R9). -/
def isStation (st : Station) : Bool := st != 0 && st != 63

/-- Whether every coded field of a body holds a value R7 and R14 define for the line. -/
def codedFieldsOk : Body → Bool
  | .post _ _ _ _ _ o => decide (o ≠ .none)
  | .holdNo _ r _ | .claimNo _ r | .postOk _ _ _ r _ _ | .postNo _ r | .loadNo _ r | .returnNo _ r | .inquireNo _ r =>
    lineReason r
  | _ => true

/-- R9's tests of source, destination and coded fields: the destination is 63 for TALLY-OPEN and 1 to 62 for every other
kind. -/
def addressOk (src dst : Station) (b : Body) : Bool :=
  isStation src && (match b with | .tallyOpen _ => dst == 63 | _ => isStation dst) && codedFieldsOk b

/-- The body of a complete frame that passes the CRC test of R5 and every test of R9. -/
def takenBody (f : RawFrame) : Option Body :=
  if f.crc = frameCrc f ∧ f.len.toNat ≤ 56 ∧ f.body.length = f.len.toNat then
    (decodeBody f.kind f.body).filter (addressOk f.src f.dst)
  else none

/-! ### Command records (R10, R11) -/

/-- The parameter length of each command code (R11). -/
def paramLength (code : Byte) : Option Nat :=
  match code.toNat with
  | 0x01 => some 40 | 0x02 => some 0 | 0x03 => some 0 | 0x04 => some 0
  | 0x10 => some 6 | 0x11 => some 5 | 0x12 => some 5 | 0x13 => some 5
  | 0x20 => some 10 | 0x21 => some 11 | 0x22 => some 5 | 0x23 => some 2 | 0x24 => some 10 | 0x25 => some 10
  | 0x30 => some 2 | 0x31 => some 0
  | 0x40 => some 2 | 0x41 => some 2 | 0x42 => some 1 | 0x43 => some 1
  | 0x50 => some 0 | 0x51 => some 0 | 0x52 => some 1 | 0x53 => some 2
  | _ => none

/-- The 40 parameter bytes of CONFIGURE read as fields (R11). -/
def decodeConfig (bs : List Byte) : ConfigParams where
  present := BitVec.ofNat 16 (fieldAt bs 0 2)
  station := BitVec.ofNat 8 (fieldAt bs 2 1)
  mall := BitVec.ofNat 16 (fieldAt bs 3 2)
  seed := BitVec.ofNat 32 (fieldAt bs 5 4)
  members := BitVec.ofNat 64 (fieldAt bs 9 8)
  lineRate := BitVec.ofNat 8 (fieldAt bs 17 1)
  feeRate := BitVec.ofNat 16 (fieldAt bs 18 2)
  holdLife := BitVec.ofNat 16 (fieldAt bs 20 2)
  window := BitVec.ofNat 16 (fieldAt bs 22 2)
  waitMode := BitVec.ofNat 8 (fieldAt bs 24 1)
  cardLimit := BitVec.ofNat 24 (fieldAt bs 25 3)
  stationCap := BitVec.ofNat 24 (fieldAt bs 28 3)
  ceiling := BitVec.ofNat 24 (fieldAt bs 31 3)
  quiet := BitVec.ofNat 8 (fieldAt bs 34 1)
  tally := BitVec.ofNat 8 (fieldAt bs 35 1)
  divisor := BitVec.ofNat 16 (fieldAt bs 36 2)
  startDay := BitVec.ofNat 16 (fieldAt bs 38 2)

/-- The 40 parameter bytes of CONFIGURE (R11). -/
def configBytes (p : ConfigParams) : List Byte :=
  bytesOf 2 p.present.toNat ++ bytesOf 1 p.station.toNat ++ bytesOf 2 p.mall.toNat ++ bytesOf 4 p.seed.toNat ++
    bytesOf 8 p.members.toNat ++ bytesOf 1 p.lineRate.toNat ++ bytesOf 2 p.feeRate.toNat ++ bytesOf 2 p.holdLife.toNat ++
    bytesOf 2 p.window.toNat ++ bytesOf 1 p.waitMode.toNat ++ bytesOf 3 p.cardLimit.toNat ++
    bytesOf 3 p.stationCap.toNat ++ bytesOf 3 p.ceiling.toNat ++ bytesOf 1 p.quiet.toNat ++ bytesOf 1 p.tally.toNat ++
    bytesOf 2 p.divisor.toNat ++ bytesOf 2 p.startDay.toNat

/-- The command a complete command record spells (R10, R11): MALFORMED when the code is unknown or the parameter length
is not its own. -/
def decodeCommand (code seq : Byte) (ps : List Byte) : Instr :=
  let card (i : Nat) : CardNo := BitVec.ofNat 40 (fieldAt ps i 5)
  let w (i : Nat) : BitVec 16 := BitVec.ofNat 16 (fieldAt ps i 2)
  let a (i : Nat) : Amount := BitVec.ofNat 24 (fieldAt ps i 3)
  let b (i : Nat) : Byte := BitVec.ofNat 8 (fieldAt ps i 1)
  let flag (i k : Nat) : Bool := (fieldAt ps i 1).testBit k
  if paramLength code = some ps.length then
    match code.toNat with
    | 0x01 => .configure seq (decodeConfig ps)
    | 0x02 => .join seq
    | 0x03 => .reset seq
    | 0x04 => .status seq
    | 0x10 => .sell seq (a 0) (if flag 3 0 then some (w 4) else none)
    | 0x11 => .close seq (card 0)
    | 0x12 => .freeze seq (card 0)
    | 0x13 => .unfreeze seq (card 0)
    | 0x20 => .load seq (card 0) (w 5) (a 7)
    | 0x21 => .redeem seq (card 0) (w 5) (a 7) (flag 10 0) (flag 10 1)
    | 0x22 => .confirm seq (w 0) (a 2)
    | 0x23 => .cancel seq (w 0)
    | 0x24 => .returnCard seq (card 0) (w 5) (a 7)
    | 0x25 => .inquire seq (card 0) (w 5) (if flag 7 0 then some (w 8) else none)
    | 0x30 => .settle seq (w 0)
    | 0x31 => .recount seq
    | 0x40 => .readCard seq (w 0)
    | 0x41 => .readCaplog seq (w 0)
    | 0x42 => .readDeferred seq (b 0)
    | 0x43 => .readPayout seq (b 0)
    | 0x50 => .takeNotice seq
    | 0x51 => .readEvents seq
    | 0x52 => .clearEvents seq (b 0)
    | 0x53 => .setMask seq (b 0) (flag 1 0)
    | _ => .malformed code seq ps
  else .malformed code seq ps

/-- The command record (code, sequence number, parameters) of a till command, unused fields sent as 0 (R11); none for a
command that does not come over the till port. -/
def encodeCommand : Instr → Option (Byte × Byte × List Byte)
  | .configure q p => some (0x01, q, configBytes p)
  | .join q => some (0x02, q, [])
  | .reset q => some (0x03, q, [])
  | .status q => some (0x04, q, [])
  | .malformed c q ps => some (c, q, ps)
  | .sell q a none => some (0x10, q, bytesOf 3 a.toNat ++ [0, 0, 0])
  | .sell q a (some d) => some (0x10, q, bytesOf 3 a.toNat ++ [1] ++ bytesOf 2 d.toNat)
  | .close q c => some (0x11, q, bytesOf 5 c.toNat)
  | .freeze q c => some (0x12, q, bytesOf 5 c.toNat)
  | .unfreeze q c => some (0x13, q, bytesOf 5 c.toNat)
  | .load q c k a => some (0x20, q, bytesOf 5 c.toNat ++ bytesOf 2 k.toNat ++ bytesOf 3 a.toNat)
  | .redeem q c k a sp off =>
    some (0x21, q, bytesOf 5 c.toNat ++ bytesOf 2 k.toNat ++ bytesOf 3 a.toNat ++ [flagByte sp + 2 * flagByte off])
  | .confirm q t a => some (0x22, q, bytesOf 2 t.toNat ++ bytesOf 3 a.toNat)
  | .cancel q t => some (0x23, q, bytesOf 2 t.toNat)
  | .returnCard q c t a => some (0x24, q, bytesOf 5 c.toNat ++ bytesOf 2 t.toNat ++ bytesOf 3 a.toNat)
  | .inquire q c k none => some (0x25, q, bytesOf 5 c.toNat ++ bytesOf 2 k.toNat ++ [0, 0, 0])
  | .inquire q c k (some t) => some (0x25, q, bytesOf 5 c.toNat ++ bytesOf 2 k.toNat ++ [1] ++ bytesOf 2 t.toNat)
  | .settle q d => some (0x30, q, bytesOf 2 d.toNat)
  | .recount q => some (0x31, q, [])
  | .readCard q n => some (0x40, q, bytesOf 2 n.toNat)
  | .readCaplog q n => some (0x41, q, bytesOf 2 n.toNat)
  | .readDeferred q n => some (0x42, q, [n])
  | .readPayout q n => some (0x43, q, [n])
  | .takeNotice q => some (0x50, q, [])
  | .readEvents q => some (0x51, q, [])
  | .clearEvents q e => some (0x52, q, [e])
  | .setMask q m f => some (0x53, q, [m, flagByte f])
  | _ => none

/-- The command a word of spec/opcode_table.json spells. The table gives no row any bits ("fields": [] and no fixed bits
in all 87 rows), so no word spells a command. -/
def decodeTableWord (_nbits _w : Nat) : Option Instr := none

end Sys2Proof
end

