-- ==== Sys2Proof/Config.lean ====
section
/-! DEFINITION. What an implementation fixes: the part's capacities and times (spec 00, Capacities), and the FREE
VALUES, constants with no body that stand for the values the spec does not state. -/
namespace Sys2Proof.Config

/-- Card records per station (R15). -/
def serials : Nat := 8192
/-- Hold table entries (R42). -/
def holdEntries : Nat := 256
/-- Holds per card (R42, R44). -/
def holdsPerCard : Nat := 4
/-- Entries of a recent-tag list (R21). -/
def recentTags : Nat := 4
/-- Capture log entries (R50). -/
def captures : Nat := 1024
/-- Transaction slots (R64). -/
def slots : Nat := 32
/-- Deferred entries (R87). -/
def deferred : Nat := 64
/-- Places of the completion queue (R178). -/
def notices : Nat := 16
/-- Places of the receive queue (R119). -/
def received : Nat := 16
/-- Places of the write queue (R125). -/
def records : Nat := 8
/-- Records standing at which a STALL is queued (R39). -/
def stallAt : Nat := 4
/-- The write timeout in ms (R129). -/
def writeTimeout : Nat := 40
/-- The stuck timer's setting in ms (R106). -/
def stuckTime : Nat := 500
/-- Ceiling of every balance ceiling (R172). -/
def greatestCeiling : Nat := 2000000
/-- The default reference clock divisor (R172). -/
def defaultDivisor : Nat := 8000

/-- FREE VALUE. What a signed 48-bit sum becomes when its exact value lies outside 48 bits: R160 says only that
no stage saturates, wraps or clamps within its bound. Log 5. -/
opaque sumOutOfRange : Int → BitVec 48
/-- FREE VALUE. What a 3-byte amount field shows of a figure above 16,777,215 (R1, R50). Log 6. -/
opaque amountOutOfRange : Nat → BitVec 24
/-- FREE VALUE. The shortfall of a duplicate POST-OK whose recorded taking (second) exceeds the amount asked (first)
(R46, R50). Log 7. -/
opaque negativeShortfall : Nat → Nat → BitVec 24
/-- FREE VALUE. The generation shown for a CARD area that failed the reload with a generation above 31 (R34). Log 8. -/
opaque failedGeneration : Nat → BitVec 5
/-- FREE VALUE. The recent tags (station, tag, kind) shown for a CARD area that failed the reload by its list (R34). Log 8. -/
opaque failedTags : List (Nat × BitVec 16 × Nat) → List (BitVec 6 × BitVec 16 × BitVec 2)
/-- FREE VALUE. What the part shifts out while the till clocks in byte n of a command write, the transfer byte and the
trailing byte apart: the spec gives those two alone (R10). Log 28. -/
opaque writeFiller : Nat → BitVec 8
/-- FREE VALUE. Which of n due events the block takes next, the count of choices made so far given first (R184, R126).
Log 2. -/
opaque eventChoice : Nat → Nat → Nat

end Sys2Proof.Config
end

