-- ==== Sys2Proof/Machine/State.lean ====
section
/-! DEFINITION. Everything the GS24 holds (spec 00, Block Overview), block by block, as plain data; the machine right after
reset; and the reasons a step can stop. -/
namespace Sys2Proof.Machine

/-! ### The Card Table Unit -/

/-- The stored states of a serial (R17). -/
inductive StoredState where
  | unissued | active | frozen | closed
  deriving DecidableEq, Repr

/-- The kind of a recent-tag entry (R21). -/
inductive TagKind where
  | capture | load | ret | post
  deriving DecidableEq, Repr

/-- An entry of a recent-tag list (R21). -/
structure RecentTag where
  station : Station
  tag : Tag
  kind : TagKind
  deriving DecidableEq, Repr

/-- The durable fields of a card record (R15). -/
structure CardRecord where
  state : StoredState
  gen : BitVec 5
  balance : Nat
  issueDay : Day
  expiry : Option Day
  lastDay : Day
  tags : List RecentTag
  deriving DecidableEq, Repr

/-- A record of a blank store (R33). -/
def blankCard : CardRecord := ⟨.unissued, 0, 0, 0, none, 0, []⟩

/-- A live hold (R42): `places` is the number of completion-queue places still reserved to a local hold (2 until its
GRANTED notice enters, then 1; R59), 0 for a hold of another station. A local hold alone keeps places. -/
structure LiveHold where
  serial : Nat
  station : Station
  tag : Tag
  grant : Nat
  life : Nat
  places : Nat
  deriving DecidableEq, Repr

/-- A hold table entry: its generation, and the live hold if it is live (R42). -/
structure HoldEntry where
  gen : BitVec 8
  live : Option LiveHold
  deriving DecidableEq, Repr

/-- An entry of the hold table after reset (R42). -/
def blankHold : HoldEntry := ⟨0, none⟩

/-- A capture log entry (R50). -/
structure CapEntry where
  station : Station
  tag : Tag
  serial : Nat
  amount : Nat
  returned : Nat
  day : Day
  deriving DecidableEq, Repr

/-- The capture log, newest entry first, and the ring position the next capture takes (R50, R123; log 22). -/
structure CapLog where
  entries : List CapEntry
  head : Nat
  deriving DecidableEq, Repr

/-- The source the Card Table Unit's turn names (R37). -/
inductive Turn where
  | line | till
  deriving DecidableEq, Repr

/-- The Card Table Unit: card table (unlisted serials blank), held totals, hold table, capture log, liability total, turn. -/
structure Ctu where
  cards : Table CardRecord
  held : Table Nat
  holds : Table HoldEntry
  capLog : CapLog
  liability : Nat
  turn : Turn
  deriving DecidableEq, Repr

/-! ### Notices and the Till Port -/

/-- The outcome of a completion notice (R13). -/
inductive NoticeOutcome where
  | empty | granted | captured | captureDeferred | offlineAccepted | refused | noAnswer | cancelled | expired | loaded
  | notLoaded | returned | inDoubt | balance | fault | loss | sold | closed | stateSet
  deriving DecidableEq, Repr

/-- A completion notice (R13): the fields an outcome does not name are 0. -/
structure Notice where
  tag : Tag
  outcome : NoticeOutcome
  reason : Reason
  cardState : CardState
  isPartial : Bool
  result : TagResult
  card : CardNo
  check : Check
  amountA : Nat
  amountB : Nat
  day : Day
  deriving DecidableEq, Repr

/-- The configuration record (R11, R171, R172): line rate and wait mode are their codes, hold lifetime, Q and T are in s,
W in ms. -/
structure ConfigRecord where
  station : Station
  mall : BitVec 16
  seed : BitVec 32
  members : StationSet
  lineRate : Nat
  feeRate : Nat
  holdLife : Nat
  window : Nat
  waitMode : Nat
  cardLimit : Nat
  stationCap : Nat
  ceiling : Nat
  quiet : Nat
  tally : Nat
  divisor : Nat
  startDay : Day
  deriving DecidableEq, Repr

/-- The configuration in force while no valid CONFIG is stored: the defaults of R172, station number 0 (R175); its mall code,
issue seed and starting day, for which R172 gives no default, are 0 (log 30). -/
def defaultConfig : ConfigRecord where
  station := 0
  mall := 0
  seed := 0
  members := 0
  lineRate := 1
  feeRate := 150
  holdLife := 120
  window := 400
  waitMode := 1
  cardLimit := 5000
  stationCap := 50000
  ceiling := 500000
  quiet := 3
  tally := 30
  divisor := 8000
  startDay := 0

/-- The station states (R169). -/
inductive StationState where
  | unconfigured | configured | joined | halted
  deriving DecidableEq, Repr

/-- The reset causes (R132). -/
inductive Cause where
  | power | command
  deriving DecidableEq, Repr

/-- Where a start-up stands (R132): none, letting a write end (step 1), ready to reload (step 4). -/
inductive Startup where
  | none | finishing | reloading
  deriving DecidableEq, Repr

/-- The result of the response record (R12). -/
inductive Result where
  | none | pending | accepted | refused
  deriving DecidableEq, Repr

/-- The response record (R12). -/
structure Response where
  seq : Byte
  code : Byte
  result : Result
  reason : Reason
  tag : Tag
  data : List Byte
  deriving DecidableEq, Repr

/-- The last intake result (R10); `none` before the first command write. The model's own field (log 16). -/
inductive Intake where
  | none | taken | busy | malformed
  deriving DecidableEq, Repr

/-- A home till operation in hand (R24). -/
inductive HomeOp where
  | sell (amount : Nat) (expiry : Option Day)
  | close (card : CardNo)
  | freeze (card : CardNo)
  | unfreeze (card : CardNo)
  deriving DecidableEq, Repr

/-- A local request in hand (R58). -/
inductive LocalReq where
  | load (card : CardNo) (check : Check) (amount : Nat)
  | redeem (card : CardNo) (check : Check) (amount : Nat) (split : Bool)
  | ret (card : CardNo) (origTag : Tag) (amount : Nat)
  | inquire (card : CardNo) (check : Check) (asked : Option Tag)
  | confirm (tag : Tag) (amount : Nat)
  | cancel (tag : Tag)
  deriving DecidableEq, Repr

/-- The kind of a slot (R64). -/
inductive SlotKind where
  | redeem | load | ret | inquire
  deriving DecidableEq, Repr

/-- An opening command in hand (R67, R68). -/
structure OpenReq where
  kind : SlotKind
  card : CardNo
  check : Check
  amount : Nat
  split : Bool
  offline : Bool
  origTag : Tag
  asked : Option Tag
  deriving DecidableEq, Repr

/-- The command in hand, with the owner it waits on (R168). -/
inductive Hand where
  | homeOp (op : HomeOp)
  | localReq (r : LocalReq)
  | opening (r : OpenReq)
  | dqReturn (card : CardNo) (origTag : Tag) (amount : Nat)
  | configure (c : ConfigRecord) (clamped : BitVec 16) (joining : StationSet)
  | configureMade
  | settle
  deriving DecidableEq, Repr

/-- The Till Port (R168 to R184). -/
structure Tp where
  powered : Bool
  rstHeld : Bool
  startup : Startup
  station : StationState
  cause : Cause
  busy : Bool
  hand : Option Hand
  response : Response
  intake : Intake
  notices : List Notice
  taken : Nat
  events : BitVec 8
  mask : BitVec 8
  allMask : Bool
  config : ConfigRecord
  divisor : Nat
  refCount : Nat
  deriving DecidableEq, Repr

/-! ### The Slot Unit -/

/-- The states of a slot in use (R66); a FREE slot is not listed. -/
inductive SlotState where
  | asking | held | claiming | checking | notifying
  deriving DecidableEq, Repr

/-- The actor-side positions of a line that are filed (R82). -/
inductive FilePos where
  | redemption | ret | load
  deriving DecidableEq, Repr

/-- A slot's pending step (R81). A filing carries its position, amount, apply day (none: the live day when the record is
made, R78) and the notice that falls due with the record. -/
inductive SlotStep where
  | offline
  | deferLate
  | deferRetry
  | file (pos : FilePos) (amount : Nat) (day : Option Day) (notice : Notice)
  deriving DecidableEq, Repr

/-- A transaction slot in use (R64). -/
structure Slot where
  tag : Tag
  kind : SlotKind
  card : CardNo
  check : Check
  amount : Nat
  split : Bool
  offline : Bool
  hold : Option (HoldId × Nat)
  origTag : Tag
  asked : Option Tag
  state : SlotState
  reply : Option Nat
  stalls : Nat
  holdTimer : Option Nat
  pending : Option SlotStep
  deriving DecidableEq, Repr

/-- A notice that has fallen due and has not entered (R84): the slot it is of (none for the DQ's) and whether it is that
slot's terminal notice. -/
structure DueNotice where
  notice : Notice
  slot : Option Nat
  terminal : Bool
  deriving DecidableEq, Repr

/-- The Slot Unit: slots in use by number, due notices in the order they fell due, tag sequence. -/
structure Su where
  slots : Table Slot
  due : List DueNotice
  tagSeq : Tag
  deriving DecidableEq, Repr

/-! ### The Deferred Queue -/

/-- The kind of a deferred entry (R87). -/
inductive EntryKind where
  | post | claimRetry
  deriving DecidableEq, Repr

/-- A deferred entry (R87). -/
structure DeferredEntry where
  kind : EntryKind
  origin : Origin
  card : CardNo
  check : Check
  amount : Nat
  tag : Tag
  holdId : Option HoldId
  day : Day
  sent : Bool
  attempts : Nat
  deriving DecidableEq, Repr

/-- The DEFERRED area: the entries in acceptance order and the exposure (R123). -/
structure DeferredArea where
  entries : List DeferredEntry
  exposure : Nat
  deriving DecidableEq, Repr

/-- A back-off line (R91): `time` is none when the home is not blocked; some 0 is a back-off whose expiry is due. -/
structure BackoffLine where
  level : Nat
  time : Option Nat
  deriving DecidableEq, Repr

/-- A back-off line after reset (R91). -/
def blankBackoff : BackoffLine := ⟨0, none⟩

/-- The Deferred Queue's pending step (R94 to R99), about its SENT entry. A removal carries the amount to file, the apply
day, and the LOSS notice if the redemption was taken short. -/
inductive DqStep where
  | backToWaiting
  | remove (filed : Nat) (day : Day) (loss : Option Notice)
  | convert
  deriving DecidableEq, Repr

/-- The Deferred Queue (R87 to R104). -/
structure Dq where
  area : DeferredArea
  backoff : Table BackoffLine
  reply : Option Nat
  stalls : Nat
  pending : Option DqStep
  deriving DecidableEq, Repr

/-! ### The Line Controller -/

/-- The line states (R105). -/
inductive LineState where
  | off | active | stuck | silent
  deriving DecidableEq, Repr

/-- The receiver (R106): neither (OFF), searching, counting recessive bits after a frame, on an idle line, following. -/
inductive Receiver where
  | neither | searching | counting | idle | following
  deriving DecidableEq, Repr

/-- The transmit classes (R109). -/
inductive TxClass where
  | c0 | c1 | c2 | c3
  deriving DecidableEq, Repr

/-- A queued frame with its loss count and clash count (R109). -/
structure TxFrame where
  dst : Station
  body : Body
  loss : Nat
  clash : Nat
  deriving DecidableEq, Repr

/-- A class queue: frames in the order they entered, and the number of reserved places (R109). -/
structure TxQueue where
  frames : List TxFrame
  reserved : Nat
  deriving DecidableEq, Repr

/-- An empty class queue (R122). -/
def emptyTx : TxQueue := ⟨[], 0⟩

/-- A request in the receive queue (R119). -/
structure RxFrame where
  src : Station
  body : Body
  deriving DecidableEq, Repr

/-- The Line Controller (R105 to R122). -/
structure Lc where
  line : LineState
  receiver : Receiver
  stuck : Nat
  tx0 : TxQueue
  tx1 : TxQueue
  tx2 : TxQueue
  tx3 : TxQueue
  rx : List RxFrame
  sending : Option TxClass
  deriving DecidableEq, Repr

/-! ### The Tally Unit -/

/-- A pair mark (R140). -/
inductive PairMark where
  | none | matched | disputed
  deriving DecidableEq, Repr

/-- A pair state (R140). -/
inductive PairState where
  | matched | disputed | missing
  deriving DecidableEq, Repr

/-- A line of a blank store: every figure 0 (R139). -/
def blankLine : PairLine := ⟨⟨0, 0⟩, ⟨0, 0⟩, ⟨0, 0⟩, ⟨0, 0⟩, ⟨0, 0⟩, ⟨0, 0⟩⟩

/-- The round part (R140). -/
structure RoundPart where
  day : Option Day
  sent : StationSet
  computed : Bool
  deriving DecidableEq, Repr

/-- The round part of a blank store (R123). -/
def blankRound : RoundPart := ⟨none, 0, false⟩

/-- The states of a round (R140). -/
inductive RoundState where
  | live | quiet | tallying | computing | settled
  deriving DecidableEq, Repr

/-- A pending opening (R141). -/
structure Opening where
  day : Day
  broadcast : Bool
  settle : Bool
  deriving DecidableEq, Repr

/-- The held TALLY-OPEN (R141): its day, and whether its opening record is durable (R143). -/
structure HeldOpen where
  day : Day
  ready : Bool
  deriving DecidableEq, Repr

/-- A TALLY in the inbound list (R141). -/
structure Inbound where
  src : Station
  block : PairLine
  deriving DecidableEq, Repr

/-- A member peer as the computation takes it (R157). -/
structure PeerInput where
  station : Station
  state : PairState
  line : PairLine
  deriving DecidableEq, Repr

/-- The inputs of a computation (R157). -/
structure ComputeInputs where
  day : Day
  peers : List PeerInput
  selfLine : PairLine
  rate : Nat
  deriving DecidableEq, Repr

/-- A peer entry of a payout record (R166); `σ` is PairState in memory and the stored code in the store (R134). -/
structure PeerEntry (σ : Type) where
  station : Station
  state : σ
  block : PairLine
  netIn : Sum48
  feeIn : Sum48
  netOut : Sum48
  line : Sum48
  deriving DecidableEq, Repr

/-- A payout record (R166). -/
structure PayoutRecord (σ : Type) where
  day : Day
  revised : Bool
  entries : List (PeerEntry σ)
  payout : Sum48
  fee : Sum48
  selfLine : PairLine
  deriving DecidableEq, Repr

/-- The Tally Unit (R139 to R156). -/
structure Tu where
  liveDay : Option Day
  live : Table PairLine
  closing : Table PairLine
  marks : Table PairMark
  round : RoundPart
  figures : Table PairLine
  state : RoundState
  quiet : Option Nat
  tally : Option Nat
  opening : Option Opening
  cutShort : Bool
  heldOpen : Option HeldOpen
  sendList : List Station
  inbound : List Inbound
  computing : Option ComputeInputs
  result : Option (PayoutRecord PairState)
  revised : Bool
  payout : Option (PayoutRecord PairState)
  deriving DecidableEq, Repr

/-! ### The Posting Store -/

/-- A recent tag as the CARD area stores it: the reload tests each field (R34). -/
structure StoredTag where
  station : Nat
  tag : Tag
  kind : Nat
  deriving DecidableEq, Repr

/-- One CARD area as stored: the state is its code of R7, and the reload tests it (R34). -/
structure StoredCard where
  state : Nat
  gen : Nat
  balance : Nat
  issueDay : Day
  expiry : Option Day
  lastDay : Day
  tags : List StoredTag
  deriving DecidableEq, Repr

/-- The CARD area of a blank store (R33). -/
def blankStoredCard : StoredCard := ⟨0, 0, 0, 0, none, 0, []⟩

/-- The nonvolatile areas (R123), and the last record written when it is torn (R128). Pair marks and pair states are
stored as codes, which the reload tests (R134): marks 0 none, 1 MATCHED, 2 DISPUTED; states as R12 codes them. -/
structure Store where
  config : Option ConfigRecord
  liveDay : Option Day
  tagSeq : Tag
  cards : Table StoredCard
  capLog : CapLog
  live : Table PairLine
  closing : Table PairLine
  marks : Table Nat
  round : RoundPart
  figures : Table PairLine
  deferred : DeferredArea
  payout : Option (PayoutRecord Nat)
  torn : Bool
  deriving DecidableEq, Repr

/-- A store that has never been written (R123). -/
def blankStore : Store where
  config := none
  liveDay := none
  tagSeq := 0
  cards := []
  capLog := ⟨[], 0⟩
  live := []
  closing := []
  marks := []
  round := blankRound
  figures := []
  deferred := ⟨[], 0⟩
  payout := none
  torn := false

/-- One area update of a posting record (R124). -/
inductive AreaUpdate where
  | config (c : ConfigRecord)
  | liveDay (d : Day)
  | tagSeq (t : Tag)
  | card (serial : Nat) (r : CardRecord)
  | capLog (l : CapLog)
  | pairLive (st : Station) (l : PairLine)
  | pairLiveClear
  | pairClosing (st : Station) (l : PairLine) (m : PairMark) (round : Option RoundPart)
  | pairClosingAll (t : Table PairLine) (m : Table PairMark) (round : RoundPart)
  | roundPart (round : RoundPart)
  | peerFigures (st : Station) (l : PairLine)
  | peerFiguresClear
  | deferred (a : DeferredArea)
  | payout (p : PayoutRecord PairState)
  deriving DecidableEq, Repr

/-- What a block has decided but may not release before a record is durable (R127). A placed notice has a taken place, and
carries the amount its FAULT notice would show (R24, R62). -/
inductive Dependent where
  | answer (dst : Station) (body : Body)
  | placed (notice : Notice) (asked : Nat)
  | slotFrame (slot : Nat) (tag : Tag) (dst : Station) (body : Body)
  | slotNotice (slot : Nat) (notice : Notice)
  | dqFrame (dst : Station) (body : Body)
  | loss (notice : Notice)
  | configured (clamped : BitVec 16)
  | opened (day : Day) (settle : Bool)
  | tally (dst : Station) (body : Body)
  | payoutMade (day : Day)
  deriving DecidableEq, Repr

/-- A posting record with its dependents in the order attached (R124, R127). -/
structure PostingRecord where
  updates : List AreaUpdate
  deps : List Dependent
  deriving DecidableEq, Repr

/-- The steps that wait for a write-queue place (R126). -/
inductive WaitStep where
  | configure
  | ctuLine
  | ctuLocal
  | opening
  | dqReturn
  | slot (n : Nat)
  | dqPending
  | forwarder
  | roundOpening
  | cutShort
  | tally
  | reception (src : Station)
  | payout
  deriving DecidableEq, Repr

/-- A waiting step, and whether a free place of the write queue is held for it (R126). -/
structure Waiting where
  step : WaitStep
  held : Bool
  deriving DecidableEq, Repr

/-- The Posting Store (R123 to R138); the head of a queue that is not empty is the write under way, and `timer` is what is
left of its 40 ms. -/
structure Ps where
  store : Store
  queue : List PostingRecord
  timer : Nat
  waiting : List Waiting
  deriving DecidableEq, Repr

/-! ### The machine -/

/-- The GS24 and its queue of waiting commands. -/
structure State where
  tp : Tp
  ctu : Ctu
  su : Su
  dq : Dq
  lc : Lc
  ps : Ps
  tu : Tu
  choices : Nat
  pending : List Instr
  deriving DecidableEq, Repr

/-- Why a step can end in a fault: never. The GS24 has no exception, and no command of the table stops it, so this type
has no constructor (safe). -/
inductive Fault where
  deriving DecidableEq, Repr

/-- Why a step can be refused. -/
inductive Refusal where
  /-- Raised by an arm of exec whose command has no meaning yet: none (safe). -/
  | notModelled (mnemonic : String)
  deriving DecidableEq, Repr

/-! ### Values at reset -/

/-- The response record after power-up and after RESET (R12). -/
def blankResponse : Response := ⟨0, 0, .none, .none, 0, []⟩

/-- The Card Table Unit with a blank card table (R33, R42, R50, R63). -/
def blankCtu : Ctu := ⟨[], [], [], ⟨[], 0⟩, 0, .line⟩

/-- The Slot Unit after a blank start (R65, R86). -/
def blankSu : Su := ⟨[], [], 0⟩

/-- The Deferred Queue after a blank start (R104). -/
def blankDq : Dq := ⟨⟨[], 0⟩, [], none, 0, none⟩

/-- The Line Controller after reset (R122). -/
def blankLc : Lc := ⟨.off, .neither, 0, emptyTx, emptyTx, emptyTx, emptyTx, [], none⟩

/-- The Tally Unit after a blank start (R141, R156). -/
def blankTu : Tu where
  liveDay := none
  live := []
  closing := []
  marks := []
  round := blankRound
  figures := []
  state := .live
  quiet := none
  tally := none
  opening := none
  cutShort := false
  heldOpen := none
  sendList := []
  inbound := []
  computing := none
  result := none
  revised := false
  payout := none

/-- The Till Port at the end of a start-up after power-up on a blank store (R135, R175). -/
def resetTp : Tp where
  powered := true
  rstHeld := false
  startup := .none
  station := .unconfigured
  cause := .power
  busy := false
  hand := none
  response := blankResponse
  intake := .none
  notices := []
  taken := 0
  events := 0
  mask := 0
  allMask := false
  config := defaultConfig
  divisor := Config.defaultDivisor
  refCount := 0

/-- The machine right after reset: the end of the start-up that follows power-up, on a store never written (R132 to R135;
log 3). -/
def State.reset : State where
  tp := resetTp
  ctu := blankCtu
  su := blankSu
  dq := blankDq
  lc := blankLc
  ps := ⟨blankStore, [], 0, []⟩
  tu := blankTu
  choices := 0
  pending := []

end Sys2Proof.Machine
end

