-- ==== Sys2Proof/Machine/Table.lean ====
section
/-! DEFINITION. Sparse tables: lists of (index, value) with indices strictly rising. A table with a default value lists no
entry equal to the default (the blank values of R33, R42, R91, R123), so that equal contents are equal lists. -/
namespace Sys2Proof.Machine

/-- The value listed at an index. -/
def Table.find {α : Type} : Table α → Nat → Option α
  | [], _ => none
  | (i, v) :: t, k => if i = k then some v else if k < i then none else find t k

/-- The table with this value listed at this index. -/
def Table.put {α : Type} : Table α → Nat → α → Table α
  | [], k, v => [(k, v)]
  | (i, w) :: t, k, v => if i = k then (k, v) :: t else if k < i then (k, v) :: (i, w) :: t else (i, w) :: put t k v

/-- The table with nothing listed at this index. -/
def Table.drop {α : Type} : Table α → Nat → Table α
  | [], _ => []
  | (i, w) :: t, k => if i = k then t else if k < i then (i, w) :: t else (i, w) :: drop t k

/-- What an index reads as, `d` where nothing is listed. -/
def Table.get {α : Type} (d : α) (t : Table α) (k : Nat) : α := (Table.find t k).getD d

/-- The table after writing a value at an index: writing the default removes the entry. -/
def Table.set {α : Type} [DecidableEq α] (d : α) (t : Table α) (k : Nat) (v : α) : Table α :=
  if v = d then Table.drop t k else Table.put t k v

/-- Whether the indices rise strictly, all at or above `n`. -/
def Table.risesFrom {α : Type} : Nat → Table α → Bool
  | _, [] => true
  | n, (i, _) :: t => decide (n ≤ i) && risesFrom (i + 1) t

/-- Whether the indices of a table rise strictly. -/
def Table.rises {α : Type} (t : Table α) : Bool := Table.risesFrom 0 t

/-- The canonical form: indices strictly rising, no entry equal to the default. -/
def Table.wf {α : Type} [DecidableEq α] (d : α) (t : Table α) : Bool :=
  Table.rises t && t.all fun e => decide (e.2 ≠ d)

/-- The lowest of the n indices from k on that passes a test. -/
def lowest (p : Nat → Bool) : Nat → Nat → Option Nat
  | 0, _ => none
  | n + 1, k => if p k then some k else lowest p n (k + 1)

end Sys2Proof.Machine
end

