-- ==== Sys2Proof/Machine/Operands.lean ====
section
/-! DEFINITION. Values read from State and from operands: membership, card records and their reported state, check codes,
hold ids, amounts as fields, figures and 48-bit sums (spec 01 to 03, 08, 09). -/
namespace Sys2Proof.Machine

/-! ### Numbers -/

/-- A 3-byte amount field of a figure; above 16,777,215 the spec states no field (log 6). -/
def amount24 (n : Nat) : Amount := if n < 2 ^ 24 then BitVec.ofNat 24 n else Config.amountOutOfRange n

/-- A signed 48-bit value of an exact result (R160); outside 48 bits the spec states no value (log 5). -/
def narrow48 (x : Int) : Sum48 :=
  if -(2 ^ 47) ≤ x ∧ x < 2 ^ 47 then BitVec.ofInt 48 x else Config.sumOutOfRange x

/-- A figure after one more movement: count +1 modulo 65,536, sum + amount (R57, R82). -/
def countFigure (f : Figure) (amount : Nat) : Figure := ⟨f.count + 1, narrow48 (f.sum.toInt + amount)⟩

/-- Whether day `e` is earlier than day `d`: their difference modulo 65,536 lies in 1 to 32,767 (R18). -/
def earlier (e d : Day) : Bool := decide (1 ≤ (d - e).toNat ∧ (d - e).toNat ≤ 32767)

/-! ### Stations and the configuration -/

/-- This station's number: 0 while no configuration is in force (R175). -/
def ownStation (s : State) : Station := s.tp.config.station

/-- Whether a set of stations names a station 1 to 62. -/
def inSet (m : StationSet) (st : Station) : Bool := isStation st && m.getLsbD st.toNat

/-- A set of stations with one more. -/
def addTo (m : StationSet) (st : Station) : StationSet := m ||| (1#64 <<< st.toNat)

/-- Whether a station is in the membership map (R11, R172). -/
def isMember (s : State) (st : Station) : Bool := inSet s.tp.config.members st

/-- The stations 1 to 62 in increasing order. -/
def stationNumbers : List Station := (List.range 62).map fun i => BitVec.ofNat 6 (i + 1)

/-- The member peers: every member other than this station, in increasing number (R157). -/
def memberPeers (s : State) : List Station := stationNumbers.filter fun st => isMember s st && st != ownStation s

/-- The live day as a number; 0 while none is stored (R176). -/
def liveDay (s : State) : Day := s.tu.liveDay.getD 0

/-! ### Card records -/

/-- The record of a serial (R15). -/
def cardOf (s : State) (serial : Nat) : CardRecord := Table.get blankCard s.ctu.cards serial

/-- The held total of a serial (R15). -/
def heldOf (s : State) (serial : Nat) : Nat := Table.get 0 s.ctu.held serial

/-- The available amount of a serial: balance less held total (R16). -/
def available (s : State) (serial : Nat) : Nat := (cardOf s serial).balance - heldOf s serial

/-- Whether a record is issued: ACTIVE or FROZEN (R17). -/
def isIssued (r : CardRecord) : Bool := decide (r.state = .active) || decide (r.state = .frozen)

/-- Whether a record is past its expiry day on this live day (R18); with no live day held no record is past it (log 31). -/
def pastExpiry (live : Option Day) (r : CardRecord) : Bool :=
  match r.expiry, live with
  | some e, some d => earlier e d
  | _, _ => false

/-- The reported state of a record (R18): an issued card past its expiry day is reported EXPIRED. -/
def reportedOn (live : Option Day) (r : CardRecord) : CardState :=
  match r.state with
  | .unissued => .unissued
  | .closed => .closed
  | .active => if pastExpiry live r then .expired else .active
  | .frozen => if pastExpiry live r then .expired else .frozen

/-- The reported state of a serial at this moment; no card is reported EXPIRED while UNCONFIGURED (R18, R32). -/
def reported (s : State) (serial : Nat) : CardState :=
  reportedOn (if s.tp.station = .unconfigured then none else s.tu.liveDay) (cardOf s serial)

/-- The card number of a serial's record (R19, R20). -/
def cardNumber (s : State) (serial : Nat) : CardNo :=
  makeCard s.tp.config.mall (ownStation s) serial (cardOf s serial).gen

/-- The check code of a serial's record (R20). -/
def checkOf (s : State) (serial : Nat) : Check := checkCode (cardNumber s serial) s.tp.config.seed

/-- The recent-tag entry with this station and tag, if one stands (R21). -/
def findTag (r : CardRecord) (st : Station) (tag : Tag) : Option RecentTag :=
  r.tags.find? fun e => e.station == st && e.tag == tag

/-- The recent-tag list after an entry joins (R21). -/
def joinTag (tags : List RecentTag) (e : RecentTag) : List RecentTag :=
  (e :: tags.filter fun x => !(x.station == e.station && x.tag == e.tag)).take Config.recentTags

/-! ### Holds -/

/-- A hold table entry (R42). -/
def holdAt (s : State) (i : Nat) : HoldEntry := Table.get blankHold s.ctu.holds i

/-- The live entries of the hold table with their indices. -/
def liveHolds (s : State) : List (Nat × LiveHold) := s.ctu.holds.filterMap fun e => e.2.live.map fun h => (e.1, h)

/-- A hold id: index, then generation (R42). -/
def makeHoldId (i : Nat) (gen : BitVec 8) : HoldId := BitVec.ofNat 8 i ++ gen

/-- The index of a hold id. -/
def holdIndex (h : HoldId) : Nat := (h.extractLsb' 8 8).toNat

/-- The generation of a hold id. -/
def holdGen (h : HoldId) : BitVec 8 := h.extractLsb' 0 8

/-- The number of live holds on a serial (R42). -/
def holdsOn (s : State) (serial : Nat) : Nat := ((liveHolds s).filter fun e => e.2.serial == serial).length

/-- The lowest-numbered free entry of the hold table (R42). -/
def freeHold (s : State) : Option Nat := lowest (fun i => (holdAt s i).live.isNone) Config.holdEntries 0

/-- The live local holds in table order: those that keep completion-queue places (R59). -/
def localHolds (s : State) : List (Nat × LiveHold) := (liveHolds s).filter fun e => e.2.places != 0

/-- The live local hold with this tag (R59). -/
def localHold (s : State) (tag : Tag) : Option (Nat × LiveHold) := (localHolds s).find? fun e => e.2.tag == tag

/-- The hold a CLAIM or DROP names, when it is live for it: same generation, sender and tag (R47, R49). -/
def namedHold (s : State) (id : HoldId) (src : Station) (tag : Tag) : Option LiveHold :=
  if (holdAt s (holdIndex id)).gen = holdGen id then
    (holdAt s (holdIndex id)).live.filter fun h => h.station == src && h.tag == tag
  else none

/-! ### The capture log -/

/-- The capture log entry with this redeeming station and tag (R50). -/
def findCapture (s : State) (st : Station) (tag : Tag) : Option CapEntry :=
  s.ctu.capLog.entries.find? fun e => e.station == st && e.tag == tag

/-- The log after a capture: merged into an entry with the same station and tag, or added at the head, the oldest of
1,024 overwritten (R50). -/
def addCapture (l : CapLog) (c : CapEntry) : CapLog :=
  if l.entries.any fun e => e.station == c.station && e.tag == c.tag then
    { l with entries := l.entries.map fun e =>
        if e.station == c.station && e.tag == c.tag then { e with amount := e.amount + c.amount } else e }
  else ⟨(c :: l.entries).take Config.captures, (l.head + 1) % Config.captures⟩

/-- The log after a return against the entry with this station and tag (R55). -/
def addReturn (l : CapLog) (st : Station) (tag : Tag) (amount : Nat) : CapLog :=
  { l with entries := l.entries.map fun e =>
      if e.station == st && e.tag == tag then { e with returned := e.returned + amount } else e }

/-! ### Pair tables -/

/-- A line of the live pair table (R139). -/
def liveLine (s : State) (st : Station) : PairLine := Table.get blankLine s.tu.live st.toNat

/-- A line of the closing pair table (R139). -/
def closingLine (s : State) (st : Station) : PairLine := Table.get blankLine s.tu.closing st.toNat

/-- A pair mark (R140). -/
def markOf (s : State) (st : Station) : PairMark := Table.get .none s.tu.marks st.toNat

/-- The figures held from a peer (R140). -/
def figuresOf (s : State) (st : Station) : Option PairLine := Table.find s.tu.figures st.toNat

/-- The home-side figure a change is counted in (R57). -/
inductive HomePos where
  | redemption | ret | load
  deriving DecidableEq, Repr

/-- A line after a home-side count (R57). -/
def countHome (l : PairLine) (p : HomePos) (amount : Nat) : PairLine :=
  match p with
  | .redemption => { l with homeRed := countFigure l.homeRed amount }
  | .ret => { l with homeRet := countFigure l.homeRet amount }
  | .load => { l with homeLoad := countFigure l.homeLoad amount }

/-- A line after an actor-side filing (R82). -/
def countActor (l : PairLine) (p : FilePos) (amount : Nat) : PairLine :=
  match p with
  | .redemption => { l with actRed := countFigure l.actRed amount }
  | .ret => { l with actRet := countFigure l.actRet amount }
  | .load => { l with actLoad := countFigure l.actLoad amount }

/-! ### Deferred entries -/

/-- The SENT entry (R88). -/
def sentEntry (s : State) : Option DeferredEntry := s.dq.area.entries.find? (·.sent)

/-- The sum of the amounts of the entries of origin OFFLINE (R89). -/
def offlineSum (es : List DeferredEntry) : Nat := ((es.filter fun e => e.origin == .offline).map (·.amount)).sum

/-- The OFFLINE total of one card number (R89). -/
def cardOffline (es : List DeferredEntry) (card : CardNo) : Nat := offlineSum (es.filter fun e => e.card == card)

/-- A back-off line (R91). -/
def backoffOf (s : State) (home : Station) : BackoffLine := Table.get blankBackoff s.dq.backoff home.toNat

/-- Whether a home is blocked (R91). -/
def isBlocked (s : State) (home : Station) : Bool := (backoffOf s home).time.isSome

/-- The oldest WAITING entry whose home is not blocked (R92). -/
def eligible (s : State) : Option DeferredEntry :=
  s.dq.area.entries.find? fun e => !e.sent && !isBlocked s (cardHome e.card)

/-! ### Tags in use -/

/-- Whether a tag may not be given: of a slot in use, of a live local hold, or of a deferred entry (R65). -/
def tagInUse (s : State) (t : Tag) : Bool :=
  s.su.slots.any (fun e => e.2.tag == t) || (localHold s t).isSome || s.dq.area.entries.any (fun e => e.tag == t)

/-- The advance of R65: add one, modulo 65,536, until the value is not 0 and not in use. -/
def advance (used : Tag → Bool) : Nat → Tag → Tag
  | 0, t => t
  | n + 1, t => if t + 1 = 0 || used (t + 1) then advance used n (t + 1) else t + 1

/-- The next tag of the tag sequence (R65): at most 352 values are in use and 0 is passed over, so 354 additions reach
it. -/
def nextTag (s : State) : Tag := advance (tagInUse s) 354 s.su.tagSeq

end Sys2Proof.Machine
end

