-- ==== Sys2Proof/Machine/Flags.lean ====
section
/-! DEFINITION. The event pending set, the mask, the attention line and the port status byte (R10, R180 to R183). -/
namespace Sys2Proof.Machine

/-- The eight events, in the bit order of R11. -/
inductive Event where
  | notice | settled | store | line | overrun | daySkew | lateFiling | loss
  deriving DecidableEq, Repr

/-- The bit of an event in the pending set, the mask and the events-to-clear field (R11). -/
def eventBit : Event → BitVec 8
  | .notice => 0x01 | .settled => 0x02 | .store => 0x04 | .line => 0x08 | .overrun => 0x10 | .daySkew => 0x20
  | .lateFiling => 0x40 | .loss => 0x80

/-- Whether an event is pending (R180). -/
def isPending (s : State) (e : Event) : Bool := s.tp.events &&& eventBit e != 0

/-- The state with an event set: one already pending stays pending (R180). -/
def setEvent (e : Event) (s : State) : State := { s with tp := { s.tp with events := s.tp.events ||| eventBit e } }

/-- The pending set after NOTICE is set again, which is so while a notice stands in the queue (R180). -/
def keepNotice (s : State) (events : BitVec 8) : BitVec 8 :=
  if s.tp.notices.isEmpty then events else events ||| eventBit .notice

/-- The attention line is asserted while the all-mask flag is on and a pending event lies in the mask (R183). -/
def attention (s : State) : Bool := s.tp.allMask && (s.tp.events &&& s.tp.mask != 0)

/-- Whether the part is powered and not held by its reset pin (R138, R175). -/
def isRunning (s : State) : Bool := s.tp.powered && !s.tp.rstHeld

/-- Whether the part runs and no start-up is under way (R132). -/
def isUp (s : State) : Bool := isRunning s && decide (s.tp.startup = .none)

/-- Whether the blocks that wait for JOIN run: JOINED, or HALTED-STORE, where the CTU and the LC go on (R61, R130, R173). -/
def isOpen (s : State) : Bool := isUp s && (decide (s.tp.station = .joined) || decide (s.tp.station = .halted))

/-- Whether steps that make records run: JOINED (R131, R173). -/
def isJoined (s : State) : Bool := isUp s && decide (s.tp.station = .joined)

/-- Whether the station is in HALTED-STORE. -/
def isHalted (s : State) : Bool := decide (s.tp.station = .halted)

/-- The port status byte (R10). -/
def portStatus (s : State) : Byte :=
  (if s.tp.busy then 0x01 else 0) ||| (if attention s then 0x02 else 0) |||
    (if s.tp.notices.isEmpty then 0 else 0x04) ||| (if isHalted s then 0x08 else 0)

end Sys2Proof.Machine
end

