-- ==== Sys2Proof/Machine/Ops.lean ====
section
/-! DEFINITION. The shared operations: the response record, the completion queue, transmit queues, posting records and their
dependents, writes of the Card Table Unit, the waiting order of the write queue. -/
namespace Sys2Proof.Machine

/-! ### The response record and command state (R12, R168) -/

/-- The immediate part of the command in hand ends: the response is completed, the command state returns to IDLE and the
command in hand is gone (R168). -/
def complete (result : Result) (reason : Reason) (tag : Tag) (data : List Byte) (s : State) : State :=
  { s with tp := { s.tp with
      response := { s.tp.response with result := result, reason := reason, tag := tag, data := data }
      busy := false, hand := none } }

/-- The command in hand is accepted (R12). -/
def accept (tag : Tag) (data : List Byte) (s : State) : State := complete .accepted .none tag data s

/-- The command in hand is refused: tag 0, no data (R12). -/
def refuse (reason : Reason) (s : State) : State := complete .refused reason 0 [] s

/-- A CONFIRM refused on the slot or hold it names: the tag named, no data (R12; log 35). -/
def refuseNamed (reason : Reason) (tag : Tag) (s : State) : State := complete .refused reason tag [] s

/-- The command in hand goes to an owner and waits there, PENDING (R168). -/
def handTo (h : Hand) (s : State) : State := { s with tp := { s.tp with hand := some h } }

/-! ### The completion queue (R178) -/

/-- Places that hold no notice and are not taken. -/
def freePlaces (s : State) : Nat := Config.notices - s.tp.notices.length - s.tp.taken

/-- Free places that no waiting notice of the Slot Unit or the Deferred Queue is to enter (R178). -/
def sparePlaces (s : State) : Nat := freePlaces s - s.su.due.length

/-- Take n places. -/
def takePlaces (n : Nat) (s : State) : State := { s with tp := { s.tp with taken := s.tp.taken + n } }

/-- Give up n taken places. -/
def freeTaken (n : Nat) (s : State) : State := { s with tp := { s.tp with taken := s.tp.taken - n } }

/-- A notice enters a place: it stands last, and NOTICE is set (R178, R180). -/
def enterNotice (n : Notice) (s : State) : State :=
  setEvent .notice { s with tp := { s.tp with notices := s.tp.notices ++ [n] } }

/-- A notice enters the place taken for it (R178). -/
def enterPlaced (n : Notice) (s : State) : State := enterNotice n (freeTaken 1 s)

/-- A notice with every field its outcome does not name at 0 (R13). -/
def plainNotice (tag : Tag) (card : CardNo) (o : NoticeOutcome) : Notice :=
  ⟨tag, o, .none, .unissued, false, .notAsked, card, 0, 0, 0, 0⟩

/-- A FAULT notice: amount A where one was asked (R13, R24, R62). -/
def faultNotice (tag : Tag) (card : CardNo) (asked : Nat) : Notice :=
  { plainNotice tag card .fault with amountA := asked }

/-- A notice without a taken place falls due and waits (R84, R178). -/
def fallDue (n : Notice) (slot : Option Nat) (terminal : Bool) (s : State) : State :=
  { s with su := { s.su with due := s.su.due ++ [⟨n, slot, terminal⟩] } }

/-! ### Transmit queues (R109) -/

/-- The places of a class (R109). -/
def txPlaces : TxClass → Nat
  | .c0 => 8 | .c1 => 4 | .c2 => 8 | .c3 => 4

/-- The queue of a class. -/
def txOf (l : Lc) : TxClass → TxQueue
  | .c0 => l.tx0 | .c1 => l.tx1 | .c2 => l.tx2 | .c3 => l.tx3

/-- The Line Controller with another queue of a class. -/
def setTx (l : Lc) (c : TxClass) (q : TxQueue) : Lc :=
  match c with
  | .c0 => { l with tx0 := q }
  | .c1 => { l with tx1 := q }
  | .c2 => { l with tx2 := q }
  | .c3 => { l with tx3 := q }

/-- Free places of a class: reserved places count as occupied (R109). -/
def txFree (s : State) (c : TxClass) : Nat := txPlaces c - (txOf s.lc c).frames.length - (txOf s.lc c).reserved

/-- Reserve a place of a class. -/
def reserve (c : TxClass) (s : State) : State :=
  { s with lc := setTx s.lc c { txOf s.lc c with reserved := (txOf s.lc c).reserved + 1 } }

/-- Give up a reserved place of a class. -/
def unreserve (c : TxClass) (s : State) : State :=
  { s with lc := setTx s.lc c { txOf s.lc c with reserved := (txOf s.lc c).reserved - 1 } }

/-- A frame enters a class queue: it stands last, with both counts 0 (R109). -/
def enqueue (c : TxClass) (dst : Station) (b : Body) (s : State) : State :=
  { s with lc := setTx s.lc c { txOf s.lc c with frames := (txOf s.lc c).frames ++ [⟨dst, b, 0, 0⟩] } }

/-- A frame enters its reserved place (R109). -/
def enterReserved (c : TxClass) (dst : Station) (b : Body) (s : State) : State := enqueue c dst b (unreserve c s)

/-- A block withdraws its frames of a class, all but one under way, and its reservations (R116). A frame under way that then
loses arbitration or clashes stays at the head of its queue and is offered again (R112, R115; log 34). -/
def withdraw (c : TxClass) (s : State) : State :=
  let kept := if s.lc.sending = some c then (txOf s.lc c).frames.take 1 else []
  { s with lc := setTx s.lc c ⟨kept, 0⟩ }

/-! ### Posting records and dependents (R124 to R127) -/

/-- The places of the write queue held for waiting steps (R126). -/
def heldPlaces (l : List Waiting) : Nat := l.countP (·.held)

/-- Free places of the write queue: they hold no record and are held for no step (R126). -/
def freeRecords (s : State) : Nat := Config.records - s.ps.queue.length - heldPlaces s.ps.waiting

/-- A posting record is made; in an empty queue its write begins (R124, R125, R129). -/
def makeRecord (updates : List AreaUpdate) (deps : List Dependent) (s : State) : State :=
  { s with ps := { s.ps with
      queue := s.ps.queue ++ [⟨updates, deps⟩]
      timer := if s.ps.queue.isEmpty then Config.writeTimeout else s.ps.timer } }

/-- A dependent attached to the youngest record (R127). -/
def attachYoungest (d : Dependent) : List PostingRecord → List PostingRecord
  | [] => []
  | [r] => [{ r with deps := r.deps ++ [d] }]
  | r :: rs => r :: attachYoungest d rs

/-- An answer released at the take (R41). -/
def answerNow (dst : Station) (b : Body) (s : State) : State := enqueue .c0 dst b s

/-- An answer that follows every record standing at the take; at once if none stands (R41, R127). -/
def answerAfterRecords (dst : Station) (b : Body) (s : State) : State :=
  if s.ps.queue.isEmpty then answerNow dst b s
  else { reserve .c0 s with ps := { s.ps with queue := attachYoungest (.answer dst b) s.ps.queue } }

/-- A record whose answer is released when it is durable (R41). -/
def recordWithAnswer (updates : List AreaUpdate) (dst : Station) (b : Body) (s : State) : State :=
  makeRecord updates [.answer dst b] (reserve .c0 s)

/-! ### Writes of the Card Table Unit -/

/-- A card record is written in memory, and the liability total moves with its balance (R23). -/
def putCard (serial : Nat) (r : CardRecord) (s : State) : State :=
  { s with ctu := { s.ctu with
      cards := Table.set blankCard s.ctu.cards serial r
      liability := s.ctu.liability + r.balance - (cardOf s serial).balance } }

/-- The held total of a serial is written. -/
def putHeld (serial n : Nat) (s : State) : State :=
  { s with ctu := { s.ctu with held := Table.set 0 s.ctu.held serial n } }

/-- A hold table entry is written. -/
def putHold (i : Nat) (e : HoldEntry) (s : State) : State :=
  { s with ctu := { s.ctu with holds := Table.set blankHold s.ctu.holds i e } }

/-- A hold is made in entry i: the generation advances by one, modulo 256, and the held total rises by the grant (R42). -/
def makeHold (i : Nat) (h : LiveHold) (s : State) : State :=
  putHeld h.serial (heldOf s h.serial + h.grant) (putHold i ⟨(holdAt s i).gen + 1, some h⟩ s)

/-- A live entry becomes free: it keeps its generation, and the held total falls by the grant (R42). -/
def freeEntry (i : Nat) (h : LiveHold) (s : State) : State :=
  putHeld h.serial (heldOf s h.serial - h.grant) (putHold i ⟨(holdAt s i).gen, none⟩ s)

/-- The capture log is replaced. -/
def putCapLog (l : CapLog) (s : State) : State := { s with ctu := { s.ctu with capLog := l } }

/-- A home-side count in the live table (R57). -/
def countAtHome (st : Station) (p : HomePos) (amount : Nat) (s : State) : State :=
  { s with tu := { s.tu with live := Table.set blankLine s.tu.live st.toNat (countHome (liveLine s st) p amount) } }

/-- The tag sequence takes a new value (R65). -/
def putTagSeq (t : Tag) (s : State) : State := { s with su := { s.su with tagSeq := t } }

/-- The CTU's turn names the other source after each take (R37). -/
def passTurn (t : Turn) (s : State) : State := { s with ctu := { s.ctu with turn := t } }

/-! ### Slots and deferred entries -/

/-- A slot in use (R64). -/
def slotAt (s : State) (n : Nat) : Option Slot := Table.find s.su.slots n

/-- A slot is written. -/
def putSlot (n : Nat) (sl : Slot) (s : State) : State :=
  { s with su := { s.su with slots := Table.put s.su.slots n sl } }

/-- A slot becomes FREE (R84). -/
def freeSlot (n : Nat) (s : State) : State := { s with su := { s.su with slots := Table.drop s.su.slots n } }

/-- The DEFERRED entries and exposure change in memory (R87, R89). -/
def putDeferred (a : DeferredArea) (s : State) : State := { s with dq := { s.dq with area := a } }

/-- A back-off line is written (R91). -/
def putBackoff (home : Station) (b : BackoffLine) (s : State) : State :=
  { s with dq := { s.dq with backoff := Table.set blankBackoff s.dq.backoff home.toNat b } }

/-! ### The Card Table Unit's sources (R37 to R39) -/

/-- Whether a request taken now is announced by a STALL (R39). -/
def stallDue (s : State) : Bool := !isHalted s && decide (Config.stallAt ≤ s.ps.queue.length)

/-- Whether a CLAIM found in the recent-tag list is a repeat: kinds CAPTURE and POST (R46). -/
def captureRepeat (s : State) (serial : Nat) (src : Station) (tag : Tag) : Bool :=
  match findTag (cardOf s serial) src tag with
  | some e => e.kind == .capture || e.kind == .post
  | none => false

/-- The routing tests of R40 for a request on a card. -/
def routed (s : State) (src : Station) (card : CardNo) : Bool := isMember s src && cardHome card == ownStation s

/-- The hold a CLAIM names, when it is live for the claim (R47). -/
def claimHold (s : State) (src : Station) (tag : Tag) (card : CardNo) (id : HoldId) : Option LiveHold :=
  (namedHold s id src tag).filter fun h => h.serial == cardSerial card

/-- A CLAIM of amount 0 that is taken as a drop (R38, R48). -/
def claimAsDrop (s : State) (src : Station) (tag : Tag) (card : CardNo) (id : HoldId) (amount : Amount) : Bool :=
  amount == 0 && routed s src card && cardMall card == s.tp.config.mall &&
    !captureRepeat s (cardSerial card) src tag && (claimHold s src tag card id).isSome

/-- The write-queue room a line request needs (R38): none in HALTED-STORE. -/
def lineNeedsRecord (s : State) (b : Body) : Bool :=
  !isHalted s && (match b with | .claim .. | .post .. | .load .. | .ret .. => true | _ => false)

/-- The class-0 places a line request needs (R38, R39). -/
def answerRoom (s : State) (f : RxFrame) : Nat :=
  match f.body with
  | .drop .. => 0
  | .claim tag card id amount _ =>
    if claimAsDrop s f.src tag card id amount then 0 else if stallDue s then 2 else 1
  | .post .. | .load .. | .ret .. => if stallDue s then 2 else 1
  | _ => 1

/-- The write-queue room a local request needs (R58): CANCEL needs none. -/
def localNeedsRecord : LocalReq → Bool
  | .cancel _ => false
  | _ => true

/-- Whether the oldest line request makes a record (R38). -/
def lineRecord (s : State) : Bool := match s.lc.rx with | f :: _ => lineNeedsRecord s f.body | [] => false

/-- Whether the command that waits with the CTU makes a record (R24, R58). -/
def localRecord (s : State) : Bool := match s.tp.hand with | some (.localReq r) => localNeedsRecord r | _ => true

/-- The oldest request of the receive queue finds its class-0 places (R38). -/
def lineRoom (s : State) : Bool :=
  isOpen s && (match s.lc.rx with | f :: _ => decide (answerRoom s f ≤ txFree s .c0) | [] => false)

/-- A command of the till's waits with the CTU (R24, R58). -/
def localWaits (s : State) : Bool :=
  isJoined s && (match s.tp.hand with | some (.homeOp _) | some (.localReq _) => true | _ => false)

/-! ### The waiting order of the write queue (R126) -/

/-- Whether the first peer of the sending list is still to be added to the tallies-sent set, so that its tally step makes
a record (R145). -/
def tallyNeedsRecord (s : State) : Bool :=
  match s.tu.sendList with
  | p :: _ => !inSet s.tu.round.sent p
  | [] => false

/-- A tally step's conditions other than the write-queue place (R145). -/
def tallyReady (s : State) : Bool :=
  isJoined s && decide (s.tu.state = .tallying) && !s.tu.sendList.isEmpty && s.tu.heldOpen.isNone &&
    decide (1 ≤ txFree s .c1)

/-- The forwarder's conditions other than the write-queue place (R92). -/
def forwarderReady (s : State) : Bool :=
  isJoined s && (sentEntry s).isNone && decide (s.lc.line = .active) && decide (1 ≤ txFree s .c3) && (eligible s).isSome

/-- A pending opening may be made: in LIVE, SETTLED and COMPUTING, when no computation runs and the last result has been made
into a record (R143, R152, R164). -/
def openingReady (s : State) : Bool :=
  isJoined s && s.tu.opening.isSome && !s.tu.cutShort && s.tu.computing.isNone && s.tu.result.isNone &&
    (match s.tu.state with
     | .live | .settled | .computing => true
     | _ => false)

/-- Whether a slot waits with a pending step, and the step (R81). -/
def pendingOf (s : State) (n : Nat) : Option SlotStep := (slotAt s n).bind (·.pending)

/-- A slot's pending step finds its other room: a deferred entry needs a place in the Deferred Queue (R76, R81). -/
def slotStepReady (s : State) (n : Nat) : Bool :=
  match pendingOf s n with
  | some .deferLate | some .deferRetry => decide (s.dq.area.entries.length < Config.deferred)
  | some _ => true
  | none => false

/-- Whether a step stands in the waiting order for as long as this holds: its cause is there (R126). -/
def stepStands (s : State) : WaitStep → Bool
  | .configure => isUp s && (match s.tp.hand with | some (.configure ..) => true | _ => false)
  | .ctuLine => isOpen s && lineRecord s
  | .ctuLocal => localWaits s && localRecord s
  | .opening => isJoined s && (match s.tp.hand with | some (.opening _) => true | _ => false)
  | .dqReturn => isJoined s && (match s.tp.hand with | some (.dqReturn ..) => true | _ => false)
  | .slot n => isJoined s && (pendingOf s n).isSome
  | .dqPending => isJoined s && s.dq.pending.isSome
  | .forwarder => isJoined s && (sentEntry s).isNone && s.dq.area.entries.any (fun e => !e.sent)
  | .roundOpening => isJoined s && s.tu.opening.isSome
  | .cutShort => isJoined s && s.tu.cutShort
  | .tally => isJoined s && decide (s.tu.state = .tallying) && tallyNeedsRecord s
  | .reception src => isJoined s && s.tu.inbound.any fun i => i.src == src
  | .payout => isJoined s && s.tu.result.isSome

/-- Whether a waiting step is ready: every condition of its own rule other than the write-queue place holds, the Card Table
Unit's turn among them (R37, R126). -/
def stepReady (s : State) : WaitStep → Bool
  | .ctuLine => stepStands s .ctuLine && lineRoom s && (decide (s.ctu.turn = .line) || !localWaits s)
  | .ctuLocal => stepStands s .ctuLocal && (decide (s.ctu.turn = .till) || !lineRoom s)
  | .slot n => stepStands s (.slot n) && slotStepReady s n
  | .forwarder => forwarderReady s
  | .roundOpening => openingReady s
  | .tally => tallyReady s && tallyNeedsRecord s
  | w => stepStands s w

/-- Whether a step comes to wait now: the forwarder and the steps of the round come to wait when they are ready, the others
when their cause arises (R92, R126; log 4). -/
def stepArises (s : State) : WaitStep → Bool
  | .forwarder => stepReady s .forwarder
  | .roundOpening => stepReady s .roundOpening
  | .tally => stepReady s .tally
  | w => stepStands s w

/-- The steps in the order in which those that come to wait at one event are placed (log 4). -/
def waitCandidates (s : State) : List WaitStep :=
  [.configure, .ctuLine, .ctuLocal, .opening, .dqReturn] ++ s.su.slots.map (fun e => .slot e.1) ++
    [.dqPending, .forwarder, .roundOpening, .cutShort, .tally] ++ s.tu.inbound.map (fun i => .reception i.src) ++ [.payout]

/-- The steps that stand in the waiting order: those whose cause is gone have left, those that come to wait stand last. A step
that is not ready holds no place (R126; log 36). -/
def standing (s : State) : List Waiting :=
  let kept := (s.ps.waiting.filter fun w => stepStands s w.step).map fun w => { w with held := w.held && stepReady s w.step }
  let arisen := (waitCandidates s).filter fun w => stepArises s w && !kept.any fun k => k.step == w
  kept ++ arisen.map fun w => ⟨w, false⟩

/-- Free places given to the ready steps in the waiting order: one that is not ready is passed over (R126). -/
def givePlaces (s : State) : Nat → List Waiting → List Waiting
  | _, [] => []
  | 0, l => l
  | n + 1, w :: l =>
    if !w.held && stepReady s w.step then { w with held := true } :: givePlaces s n l else w :: givePlaces s (n + 1) l

/-- The waiting order after an event, each free place held for the ready step it has gone to (R126). -/
def waitingNow (s : State) : List Waiting :=
  let l := standing s
  givePlaces s (Config.records - s.ps.queue.length - heldPlaces l) l

/-- The state with its waiting order brought up to date at the end of an event. -/
def settleWaiting (s : State) : State := { s with ps := { s.ps with waiting := waitingNow s } }

/-- A step that has been taken leaves the waiting order. -/
def leaveWaiting (w : WaitStep) (s : State) : State :=
  { s with ps := { s.ps with waiting := s.ps.waiting.filter fun x => x.step != w } }

/-- The waiting step that is made next: the first that holds a place and is ready (R126). -/
def granted (s : State) : Option WaitStep :=
  (s.ps.waiting.find? fun w => w.held && stepReady s w.step).map (·.step)

/-- Whether this step is made next, in the place held for it. -/
def isGranted (s : State) (w : WaitStep) : Bool := decide (granted s = some w)

/-- Whether a ready step has its write-queue place, in whatever order the held places are used (R126). -/
def holdsPlace (s : State) (w : WaitStep) : Bool := s.ps.waiting.any fun x => x.step == w && x.held && stepReady s w

/-- The line source is ready: its request meets the admission conditions, a place of its own in the write queue among them
(R37, R38). -/
def lineReady (s : State) : Bool := lineRoom s && (!lineRecord s || holdsPlace s .ctuLine)

/-- The local source is ready, as the line source is (R37, R58). -/
def localReady (s : State) : Bool := localWaits s && (!localRecord s || holdsPlace s .ctuLocal)

/-- The CTU takes the oldest line request now: its turn, or the local source is not ready (R37); one that makes a record once the
steps before it in the waiting order have been made (R126). -/
def takesLine (s : State) : Bool :=
  lineReady s && (decide (s.ctu.turn = .line) || !localReady s) && (!lineRecord s || isGranted s .ctuLine)

/-- The CTU takes the local request now, by the same rule (R37, R126). -/
def takesLocal (s : State) : Bool :=
  localReady s && (decide (s.ctu.turn = .till) || !lineReady s) && (!localRecord s || isGranted s .ctuLocal)

end Sys2Proof.Machine
end

