-- ==== Sys2Proof/Machine/Payout.lean ====
section
/-! DEFINITION. Pair states, comparison of tallies, the payout computation and its restart (R140, R147, R150, R157 to R166). -/
namespace Sys2Proof.Machine

/-- The pair state of a peer, from its mark and its figures (R140; a mark of MATCHED or none without R140's row: log 21). -/
def pairState (s : State) (st : Station) : PairState :=
  match markOf s st, figuresOf s st with
  | .disputed, _ => .disputed
  | .matched, some _ => .matched
  | _, _ => .missing

/-- A figure agrees with its crossed figure: counts modulo 65,536, sums exactly (R147). -/
def agrees (a b : Figure) : Bool := a == b

/-- The crosswise test of a peer's block against this station's closing line for the peer (R147). -/
def crosswise (block line : PairLine) : Bool :=
  agrees block.homeRed line.actRed && agrees block.homeRet line.actRet && agrees block.homeLoad line.actLoad &&
    agrees block.actRed line.homeRed && agrees block.actRet line.homeRet && agrees block.actLoad line.homeLoad

/-- The mark after a comparison: DISPUTED stays DISPUTED (R140, R147). -/
def compareMark (old : PairMark) (block line : PairLine) : PairMark :=
  if old = .disputed then .disputed else if crosswise block line then .matched else .disputed

/-- A pair mark is written. -/
def putMark (st : Station) (m : PairMark) (s : State) : State :=
  { s with tu := { s.tu with marks := Table.set .none s.tu.marks st.toNat m } }

/-- The inputs of a computation as they stand (R157). -/
def computeInputs (s : State) : ComputeInputs where
  day := s.tu.round.day.getD 0
  peers := (memberPeers s).map fun st => ⟨st, pairState s st, closingLine s st⟩
  selfLine := closingLine s (ownStation s)
  rate := s.tp.config.feeRate

/-- The computation begins (R148, R151, R164): the round is in COMPUTING. -/
def beginComputation (s : State) : State :=
  { s with tu := { s.tu with state := .computing, computing := some (computeInputs s), result := none } }

/-- The computation restarts in COMPUTING and SETTLED: the revised flag is set, a waiting result is dropped, and the
computation begins on the inputs as they now stand (R150). -/
def restartComputation (s : State) : State :=
  match s.tu.state with
  | .computing | .settled => beginComputation { s with tu := { s.tu with revised := true } }
  | _ => s

/-- The fee on a net at a rate in basis points: the nearest whole unit, an exact half away from zero, with the net's sign
(R159). -/
def feeOn (net : Int) (rate : Nat) : Int :=
  net.sign * (((net.natAbs * rate + 5000) / 10000 : Nat) : Int)

/-- The entry of one member peer (R158, R159, R161). -/
def peerEntry (rate : Nat) (p : PeerInput) : PeerEntry PairState :=
  let l := p.line
  let netIn := narrow48 (l.actRed.sum.toInt - l.actRet.sum.toInt)
  let netOut := narrow48 (l.homeRed.sum.toInt - l.homeRet.sum.toInt)
  let feeIn := narrow48 (feeOn netIn.toInt rate)
  ⟨p.station, p.state, l, netIn, feeIn, netOut,
   narrow48 ((netIn.toInt - feeIn.toInt) - netOut.toInt + l.homeLoad.sum.toInt - l.actLoad.sum.toInt)⟩

/-- The total of a value over the MATCHED entries (R162). -/
def matchedTotal (f : PeerEntry PairState → Sum48) (es : List (PeerEntry PairState)) : Int :=
  ((es.filter fun e => e.state == .matched).map fun e => (f e).toInt).sum

/-- The payout record of a computation (R161 to R166). -/
def computePayout (i : ComputeInputs) (revised : Bool) : PayoutRecord PairState :=
  let es := i.peers.map (peerEntry i.rate)
  ⟨i.day, revised, es, narrow48 (matchedTotal (·.line) es), narrow48 (matchedTotal (·.feeIn) es), i.selfLine⟩

/-! ### Filing on the acting side (R82, R83) -/

/-- Where a filing goes (R82). -/
inductive FilePlace where
  | live | closing | late
  deriving DecidableEq, Repr

/-- The table a change of this filing day goes into, tested when the record is made (R82). -/
def filePlace (s : State) (home : Station) (day : Day) : FilePlace :=
  if s.tu.liveDay = some day then .live
  else if s.tu.round.day = some day ∧ inSet s.tu.round.sent home = false then .closing
  else .late

/-- The state and the area updates of a filing (R82, R83): a late filing sets LATE-FILING, marks the closing pair DISPUTED
when a closing day is present, and restarts the computation when that changes the mark of a member peer (R150). -/
def fileActor (home : Station) (p : FilePos) (amount : Nat) (day : Day) (s : State) : State × List AreaUpdate :=
  match filePlace s home day with
  | .closing =>
    let l := countActor (closingLine s home) p amount
    ({ s with tu := { s.tu with closing := Table.set blankLine s.tu.closing home.toNat l } },
     [.pairClosing home l (markOf s home) none])
  | place =>
    let l := countActor (liveLine s home) p amount
    let s1 := { s with tu := { s.tu with live := Table.set blankLine s.tu.live home.toNat l } }
    if place = .live then (s1, [.pairLive home l])
    else
      let s2 := setEvent .lateFiling s1
      if s2.tu.round.day.isSome then
        let s3 := putMark home .disputed s2
        let s4 := if markOf s home ≠ .disputed ∧ isMember s home = true then restartComputation s3 else s3
        (s4, [.pairLive home l, .pairClosing home (closingLine s home) .disputed none])
      else (s2, [.pairLive home l])

end Sys2Proof.Machine
end

