-- ==== Sys2Proof/Machine/Home.lean ====
section
/-! DEFINITION. The Card Table Unit's decisions: the check sequence (R40), duplicates (R46), the line requests (R44 to R56),
their answers in HALTED-STORE (R61), the home till operations (R24 to R30), the local path (R58 to R60). -/
namespace Sys2Proof.Machine

/-! ### Checks -/

/-- The STATE, STALE and CHECK steps on a serial (R40). -/
def cardChecks (s : State) (card : CardNo) (check : Option Check) : Option Reason :=
  let r := cardOf s (cardSerial card)
  if !isIssued r then some .state
  else if cardGen card ≠ r.gen then some .stale
  else match check with
    | some k => if k = checkOf s (cardSerial card) then none else some .check
    | none => none

/-- The routing tests, which fail as STATE, then MALL (R40). -/
def routeAndMall (s : State) (src : Station) (card : CardNo) : Option Reason :=
  if !routed s src card then some .state
  else if cardMall card ≠ s.tp.config.mall then some .mall
  else none

/-- The routing tests and the whole check sequence (R40). -/
def checkSequence (s : State) (src : Station) (card : CardNo) (check : Option Check) : Option Reason :=
  match routeAndMall s src card with
  | some r => some r
  | none => cardChecks s card check

/-- The refusal of a reported state other than ACTIVE (R44, R53). -/
def notActive : CardState → Option Reason
  | .active => none
  | .expired => some .expired
  | _ => some .state

/-! ### Changes to a card -/

/-- A card with a changed balance: last activity day the live day (R22), a recent-tag entry joined (R21). -/
def changeCard (s : State) (serial : Nat) (balance : Nat) (e : RecentTag) : CardRecord :=
  { cardOf s serial with balance := balance, lastDay := liveDay s, tags := joinTag (cardOf s serial).tags e }

/-- The update of a serial's CARD area as memory stands (R124). -/
def cardUpdate (s : State) (serial : Nat) : AreaUpdate := .card serial (cardOf s serial)

/-- The update of the CAPLOG area as memory stands (R50). -/
def capUpdate (s : State) : AreaUpdate := .capLog s.ctu.capLog

/-- The update of a live line as memory stands (R57). -/
def liveUpdate (s : State) (st : Station) : AreaUpdate := .pairLive st (liveLine s st)

/-- A capture: balance, recent tag, capture log, liability total, home-side count (R47, R52, R57). -/
def applyCapture (src : Station) (tag : Tag) (kind : TagKind) (serial amount : Nat) (s : State) : State :=
  let r := changeCard s serial ((cardOf s serial).balance - amount) ⟨src, tag, kind⟩
  let log := addCapture s.ctu.capLog ⟨src, tag, serial, amount, 0, liveDay s⟩
  countAtHome src .redemption amount (putCapLog log (putCard serial r s))

/-- A load: balance, recent tag, liability total, home-side count (R53, R57). -/
def applyLoad (src : Station) (tag : Tag) (serial amount : Nat) (s : State) : State :=
  let r := changeCard s serial ((cardOf s serial).balance + amount) ⟨src, tag, .load⟩
  countAtHome src .load amount (putCard serial r s)

/-- A return: balance, returned-so-far, recent tag, liability total, home-side count (R55, R57). -/
def applyReturn (src : Station) (newTag origTag : Tag) (serial amount : Nat) (s : State) : State :=
  let r := changeCard s serial ((cardOf s serial).balance + amount) ⟨src, newTag, .ret⟩
  let log := addReturn s.ctu.capLog src origTag amount
  countAtHome src .ret amount (putCapLog log (putCard serial r s))

/-! ### Line requests -/

/-- A STALL enters class 0 at the take when it is due (R39). -/
def announce (src : Station) (tag : Tag) (s : State) : State :=
  if stallDue s then answerNow src (.stall tag) s else s

/-- The tests of R44 from step 1 on, without the repeat case: the reason of the refusal, or the grant. -/
def grantTests (s : State) (serial amount : Nat) (split : Bool) : Reason ⊕ Nat :=
  if holdsOn s serial ≥ Config.holdsPerCard ∨ freeHold s = none then .inl .full
  else if amount ≤ available s serial then .inr amount
  else if 0 < available s serial ∧ split = true then .inr (available s serial)
  else .inl .funds

/-- Steps 1 and 2 of R44. -/
def holdTests (s : State) (serial amount : Nat) : Option Reason :=
  if amount < 1 ∨ s.tp.config.ceiling < amount then some .amount else notActive (reported s serial)

/-- The live hold of this sender and tag on this serial, with its index (R44, R45). -/
def repeatedHold (s : State) (src : Station) (tag : Tag) (serial : Nat) : Option (Nat × LiveHold) :=
  (liveHolds s).find? fun e => e.2.station == src && e.2.tag == tag && e.2.serial == serial

/-- The hold lifetime in ms (R42). -/
def holdLifetime (s : State) : Nat := s.tp.config.holdLife * 1000

/-- HOLD-OK for entry i (R45). -/
def holdOkBody (s : State) (i : Nat) (h : LiveHold) (asked : Nat) : Body :=
  .holdOk h.tag (makeHoldId i (holdAt s i).gen) (amount24 h.grant) (amount24 (available s h.serial)) (decide (h.grant < asked))

/-- The outcome of a HOLD from the line at its take (R44, R45, R61). -/
def decideHold (src : Station) (tag : Tag) (card : CardNo) (check : Check) (amount : Nat) (split : Bool) (s : State) :
    State :=
  let serial := cardSerial card
  let no (r : Reason) : State :=
    answerNow src (.holdNo tag r (if r = .funds then amount24 (available s serial) else 0)) s
  match checkSequence s src card (some check) with
  | some r => answerNow src (.holdNo tag r 0) s
  | none =>
    if isHalted s then answerNow src (.holdNo tag .degraded 0) s
    else match holdTests s serial amount with
    | some r => no r
    | none =>
      match repeatedHold s src tag serial with
      | some (i, h) => answerNow src (holdOkBody s i h amount) s
      | none =>
        match grantTests s serial amount split with
        | .inl r => no r
        | .inr grant =>
          let i := (freeHold s).getD 0
          let h : LiveHold := ⟨serial, src, tag, grant, holdLifetime s, 0⟩
          let s1 := makeHold i h s
          answerNow src (holdOkBody s1 i h amount) s1

/-- The reason of a CLAIM whose hold is not live for it (R48). -/
def claimReason (s : State) (id : HoldId) (retry : Bool) : Reason :=
  let e := holdAt s (holdIndex id)
  let d := (e.gen - holdGen id).toNat
  if retry then .unknown
  else if d = 0 then (if e.live.isNone then .late else .unknown)
  else if d ≤ 127 then .late
  else .unknown

/-- The answer to a repeated CLAIM (R46). -/
def repeatedClaim (s : State) (src : Station) (tag : Tag) : Body :=
  match findCapture s src tag with
  | some c => .claimOk tag (amount24 c.amount) c.day true
  | none => .claimOk tag 0 (liveDay s) true

/-- The outcome of a CLAIM from the line at its take (R46 to R48, R61). -/
def decideClaim (src : Station) (tag : Tag) (card : CardNo) (id : HoldId) (amount : Nat) (retry : Bool) (s : State) : State :=
  let serial := cardSerial card
  match routeAndMall s src card with
  | some r => answerNow src (.claimNo tag r) s
  | none =>
    let again := captureRepeat s serial src tag
    match claimHold s src tag card id with
    | some h =>
      if amount = 0 ∧ again = false then freeEntry (holdIndex id) h s
      else if isHalted s then answerNow src (.claimNo tag .degraded) s
      else if again then answerAfterRecords src (repeatedClaim s src tag) s
      else if h.grant < amount then answerNow src (.claimNo tag .amount) s
      else
        let s1 := applyCapture src tag .capture serial amount (freeEntry (holdIndex id) h s)
        recordWithAnswer [cardUpdate s1 serial, capUpdate s1, liveUpdate s1 src] src
          (.claimOk tag (amount24 amount) (liveDay s) false) s1
    | none =>
      if isHalted s then answerNow src (.claimNo tag .degraded) s
      else if again then answerAfterRecords src (repeatedClaim s src tag) s
      else answerNow src (.claimNo tag (claimReason s id retry)) s

/-- The outcome of a DROP at its take (R40, R49). -/
def decideDrop (src : Station) (tag : Tag) (id : HoldId) (s : State) : State :=
  if isMember s src then
    match namedHold s id src tag with
    | some h => freeEntry (holdIndex id) h s
    | none => s
  else s

/-- The shortfall field of a POST-OK (R7, R46, R52). -/
def shortfall24 (asked taken : Nat) : Amount :=
  if taken ≤ asked then amount24 (asked - taken) else Config.negativeShortfall asked taken

/-- The answer to a repeated POST (R46): the reason is NONE when the amount asked is the amount taken before. -/
def repeatedPost (s : State) (src : Station) (tag : Tag) (asked : Nat) : Body :=
  let answer (taken : Nat) (day : Day) : Body :=
    .postOk tag (amount24 taken) (shortfall24 asked taken) (if taken = asked then .none else .unknown) day true
  match findCapture s src tag with
  | some c => answer c.amount c.day
  | none => answer 0 (liveDay s)

/-- What a POST takes, and the reason for any shortfall, once the check sequence has passed (R51). A POST of amount 0 on an
ACTIVE card is AMOUNT by R51's step 3, where R7 gives NONE when the amount taken is the amount asked (log 29). -/
def postTaking (s : State) (serial amount : Nat) : Nat × Reason :=
  match reported s serial with
  | .expired => (0, .expired)
  | .active =>
    if amount = 0 then (0, .amount)
    else if amount ≤ available s serial then (amount, .none)
    else (available s serial, .funds)
  | _ => (0, .state)

/-- A POST applied on an issued serial: the capture when taken is above 0, else the recent-tag entry alone (R52). -/
def applyPost (src : Station) (tag : Tag) (serial amount taken : Nat) (reason : Reason) (s : State) : State :=
  let ok : Body := .postOk tag (amount24 taken) (shortfall24 amount taken) reason (liveDay s) false
  if 0 < taken then
    let s1 := applyCapture src tag .post serial taken s
    recordWithAnswer [cardUpdate s1 serial, capUpdate s1, liveUpdate s1 src] src ok s1
  else
    let r := cardOf s serial
    let s1 := putCard serial { r with tags := joinTag r.tags ⟨src, tag, .post⟩ } s
    recordWithAnswer [cardUpdate s1 serial] src ok s1

/-- The outcome of a POST at its take (R46, R51, R52, R61). -/
def decidePost (src : Station) (tag : Tag) (card : CardNo) (check : Check) (amount : Nat) (s : State) : State :=
  let serial := cardSerial card
  let noTaking (r : Reason) : Body := .postOk tag 0 (amount24 amount) r (liveDay s) false
  match routeAndMall s src card with
  | some r => answerNow src (noTaking r) s
  | none =>
    if captureRepeat s serial src tag then
      if isHalted s then answerNow src (.postNo tag .degraded) s
      else answerAfterRecords src (repeatedPost s src tag amount) s
    else match cardChecks s card (some check) with
    | some r =>
      if isHalted s || !isIssued (cardOf s serial) then answerNow src (noTaking r) s
      else applyPost src tag serial amount 0 r s
    | none =>
      if isHalted s then answerNow src (.postNo tag .degraded) s
      else
        let t := postTaking s serial amount
        applyPost src tag serial amount t.1 t.2 s

/-- Whether the request is a repeat of an applied LOAD or RETURN (R46). -/
def kindRepeat (s : State) (serial : Nat) (src : Station) (tag : Tag) (k : TagKind) : Bool :=
  match findTag (cardOf s serial) src tag with
  | some e => e.kind == k
  | none => false

/-- The tests of R53. -/
def loadTests (s : State) (serial amount : Nat) : Option Reason :=
  if amount < 1 then some .amount
  else match notActive (reported s serial) with
    | some r => some r
    | none => if s.tp.config.ceiling < (cardOf s serial).balance + amount then some .ceiling else none

/-- The outcome of a LOAD from the line at its take (R46, R53, R61). -/
def decideLoad (src : Station) (tag : Tag) (card : CardNo) (check : Check) (amount : Nat) (s : State) : State :=
  let serial := cardSerial card
  match checkSequence s src card (some check) with
  | some r => answerNow src (.loadNo tag r) s
  | none =>
    if isHalted s then answerNow src (.loadNo tag .degraded) s
    else if kindRepeat s serial src tag .load then
      answerAfterRecords src (.loadOk tag (amount24 (cardOf s serial).balance) (liveDay s) true) s
    else match loadTests s serial amount with
    | some r => answerNow src (.loadNo tag r) s
    | none =>
      let s1 := applyLoad src tag serial amount s
      recordWithAnswer [cardUpdate s1 serial, liveUpdate s1 src] src
        (.loadOk tag (amount24 (cardOf s1 serial).balance) (liveDay s) false) s1

/-- The tests of R54. -/
def returnTests (s : State) (src : Station) (origTag : Tag) (serial amount : Nat) : Option Reason :=
  if amount < 1 then some .amount
  else match findCapture s src origTag with
    | none => some .aged
    | some c =>
      if c.serial ≠ serial then some .unknown
      else if c.amount < c.returned + amount then some .over
      else if reported s serial = .expired then some .expired
      else if s.tp.config.ceiling < (cardOf s serial).balance + amount then some .ceiling
      else none

/-- The outcome of a RETURN from the line at its take (R46, R54, R55, R61). -/
def decideReturn (src : Station) (newTag : Tag) (card : CardNo) (origTag : Tag) (amount : Nat) (s : State) : State :=
  let serial := cardSerial card
  match checkSequence s src card none with
  | some r => answerNow src (.returnNo newTag r) s
  | none =>
    if isHalted s then answerNow src (.returnNo newTag .degraded) s
    else if kindRepeat s serial src newTag .ret then
      answerAfterRecords src (.returnOk newTag (amount24 (cardOf s serial).balance) (liveDay s)) s
    else match returnTests s src origTag serial amount with
    | some r => answerNow src (.returnNo newTag r) s
    | none =>
      let s1 := applyReturn src newTag origTag serial amount s
      recordWithAnswer [cardUpdate s1 serial, capUpdate s1, liveUpdate s1 src] src
        (.returnOk newTag (amount24 (cardOf s1 serial).balance) (liveDay s)) s1

/-- The tag result of an INQUIRE (R56). -/
def tagResult (s : State) (serial : Nat) (src : Station) : Option Tag → TagResult
  | none => .notAsked
  | some t =>
    match findTag (cardOf s serial) src t with
    | some e => match e.kind with
      | .load => .foundLoad
      | .ret => .foundReturn
      | _ => .notFound
    | none => .notFound

/-- The outcome of an INQUIRE from the line at its take (R41, R56, R61). -/
def decideInquire (src : Station) (tag : Tag) (card : CardNo) (check : Check) (asked : Option Tag) (s : State) : State :=
  let serial := cardSerial card
  match checkSequence s src card (some check) with
  | some r => answerNow src (.inquireNo tag r) s
  | none =>
    let body : Body := .balance tag (reported s serial) (amount24 (cardOf s serial).balance)
      (amount24 (available s serial)) (tagResult s serial src asked)
    if isHalted s then
      if asked.isSome then answerNow src (.inquireNo tag .degraded) s else answerNow src body s
    else answerAfterRecords src body s

/-- The oldest request leaves the receive queue, the turn passes to the till's source, and the step leaves the waiting
order (R37, R121). -/
def popLine (s : State) : State :=
  leaveWaiting .ctuLine (passTurn .till { s with lc := { s.lc with rx := s.lc.rx.tail } })

/-- HOLD: the CTU takes a HOLD from the receive queue (R37, R44). -/
def execHold (s : State) : Host.Outcome State Fault Refusal :=
  match s.lc.rx with
  | ⟨src, .hold tag card check amount split⟩ :: _ =>
    if takesLine s then .next (settleWaiting (decideHold src tag card check amount.toNat split (popLine s))) else .next s
  | _ => .next s

/-- CLAIM: the CTU takes a CLAIM, announcing its answer by a STALL when one is due (R37, R39, R47, R48). -/
def execClaim (s : State) : Host.Outcome State Fault Refusal :=
  match s.lc.rx with
  | ⟨src, .claim tag card id amount retry⟩ :: _ =>
    if takesLine s then
      let s1 := if claimAsDrop s src tag card id amount then popLine s else announce src tag (popLine s)
      .next (settleWaiting (decideClaim src tag card id amount.toNat retry s1))
    else .next s
  | _ => .next s

/-- DROP: the CTU takes a DROP (R37, R49). -/
def execDrop (s : State) : Host.Outcome State Fault Refusal :=
  match s.lc.rx with
  | ⟨src, .drop tag id⟩ :: _ =>
    if takesLine s then .next (settleWaiting (decideDrop src tag id (popLine s))) else .next s
  | _ => .next s

/-- POST: the CTU takes a POST (R37, R39, R51, R52). -/
def execPost (s : State) : Host.Outcome State Fault Refusal :=
  match s.lc.rx with
  | ⟨src, .post tag card check amount _ _⟩ :: _ =>
    if takesLine s then
      .next (settleWaiting (decidePost src tag card check amount.toNat (announce src tag (popLine s))))
    else .next s
  | _ => .next s

/-- LOAD_FRAME: the CTU takes a LOAD from the line (R37, R39, R53). -/
def execLoadFrame (s : State) : Host.Outcome State Fault Refusal :=
  match s.lc.rx with
  | ⟨src, .load tag card check amount⟩ :: _ =>
    if takesLine s then
      .next (settleWaiting (decideLoad src tag card check amount.toNat (announce src tag (popLine s))))
    else .next s
  | _ => .next s

/-- RETURN_FRAME: the CTU takes a RETURN from the line (R37, R39, R54, R55). -/
def execReturnFrame (s : State) : Host.Outcome State Fault Refusal :=
  match s.lc.rx with
  | ⟨src, .ret newTag card origTag amount⟩ :: _ =>
    if takesLine s then
      .next (settleWaiting (decideReturn src newTag card origTag amount.toNat (announce src newTag (popLine s))))
    else .next s
  | _ => .next s

/-- INQUIRE_FRAME: the CTU takes an INQUIRE from the line (R37, R56). -/
def execInquireFrame (s : State) : Host.Outcome State Fault Refusal :=
  match s.lc.rx with
  | ⟨src, .inquire tag card check asked⟩ :: _ =>
    if takesLine s then .next (settleWaiting (decideInquire src tag card check asked (popLine s))) else .next s
  | _ => .next s

/-! ### Home till operations (R24 to R30) -/

/-- The tests of R25 on a card number, in order. -/
def homeCardTests (s : State) (card : CardNo) : Option Reason :=
  if cardHome card ≠ ownStation s then some .state
  else if cardMall card ≠ s.tp.config.mall then some .mall
  else cardChecks s card none

/-- The lowest-numbered serial that is UNISSUED or CLOSED (R19). -/
def sellable (s : State) : Option Nat := lowest (fun k => !isIssued (cardOf s k)) Config.serials 0

/-- The record of a sold card (R27). -/
def soldCard (s : State) (serial amount : Nat) (expiry : Option Day) : CardRecord :=
  ⟨.active, (cardOf s serial).gen + 1, amount, liveDay s, expiry, liveDay s, []⟩

/-- What a home till operation comes to at its take (R25 to R30): its refusal; or the serial, the record it leaves, the
notice less its tag, and the amount a FAULT notice would carry. -/
def homeDecision (s : State) : HomeOp → Reason ⊕ (Nat × CardRecord × Notice × Nat)
  | .sell amount expiry =>
    if amount < 1 ∨ s.tp.config.ceiling < amount then .inl .amount
    else if (match expiry with | some e => earlier e (liveDay s) | none => false) then .inl .expired
    else match sellable s with
      | none => .inl .full
      | some serial =>
        let r := soldCard s serial amount expiry
        let card := makeCard s.tp.config.mall (ownStation s) serial r.gen
        .inr (serial, r,
          { plainNotice 0 card .sold with check := checkCode card s.tp.config.seed, cardState := .active, amountA := amount },
          amount)
  | .close card =>
    match homeCardTests s card with
    | some r => .inl r
    | none =>
      let serial := cardSerial card
      let r := cardOf s serial
      if 0 < heldOf s serial then .inl .held
      else .inr (serial, { r with state := .closed, balance := 0, lastDay := liveDay s },
        { plainNotice 0 card .closed with amountA := r.balance }, 0)
  | .freeze card =>
    match homeCardTests s card with
    | some r => .inl r
    | none =>
      let serial := cardSerial card
      if reported s serial ≠ .active then .inl .state
      else .inr (serial, { cardOf s serial with state := .frozen, lastDay := liveDay s },
        { plainNotice 0 card .stateSet with cardState := .frozen }, 0)
  | .unfreeze card =>
    match homeCardTests s card with
    | some r => .inl r
    | none =>
      let serial := cardSerial card
      if reported s serial ≠ .frozen then .inl .state
      else .inr (serial, { cardOf s serial with state := .active, lastDay := liveDay s },
        { plainNotice 0 card .stateSet with cardState := .active }, 0)

/-- The CTU takes a home till operation: refused with its reason, refused STATE without a free place, or accepted in one
step with its record and its notice attached (R24). -/
def takeHomeOp (op : HomeOp) (s : State) : State :=
  match homeDecision s op with
  | .inl r => refuse r s
  | .inr (serial, r, n, asked) =>
    if sparePlaces s < 1 then refuse .state s
    else
      let tag := nextTag s
      let s1 := putTagSeq tag (putCard serial r (takePlaces 1 s))
      accept tag [] (makeRecord [cardUpdate s1 serial, .tagSeq tag] [.placed { n with tag := tag } asked] s1)

/-- The turn passes to the line source and the step leaves the waiting order (R37). -/
def popLocal (s : State) : State := leaveWaiting .ctuLocal (passTurn .line s)

/-- HOME_OPERATION_TAKE: the CTU takes a waiting SELL, CLOSE, FREEZE or UNFREEZE (R24). -/
def execHomeOperationTake (s : State) : Host.Outcome State Fault Refusal :=
  match s.tp.hand with
  | some (.homeOp op) => if takesLocal s then .next (settleWaiting (takeHomeOp op (popLocal s))) else .next s
  | _ => .next s

/-! ### The local path (R58 to R60) -/

/-- The check sequence of a local request: MALL, then STATE, STALE and, with a check code, CHECK (R58). -/
def localChecks (s : State) (card : CardNo) (check : Option Check) : Option Reason :=
  if cardMall card ≠ s.tp.config.mall then some .mall else cardChecks s card check

/-- A local request accepted: its notice, with the taken place, waits on its record; the response takes the tag (R58). -/
def acceptLocal (updates : List AreaUpdate) (n : Notice) (asked : Nat) (s : State) : State :=
  accept n.tag [] (makeRecord updates [.placed n asked] s)

/-- A local LOAD at its take (R60). -/
def takeLocalLoad (card : CardNo) (check : Check) (amount : Nat) (s : State) : State :=
  let serial := cardSerial card
  match (localChecks s card (some check)).orElse fun _ => loadTests s serial amount with
  | some r => refuse r s
  | none =>
    if sparePlaces s < 1 then refuse .state s
    else
      let tag := nextTag s
      let own := ownStation s
      let s1 := putTagSeq tag (applyLoad own tag serial amount (takePlaces 1 s))
      acceptLocal [cardUpdate s1 serial, liveUpdate s1 own, .tagSeq tag]
        { plainNotice tag card .loaded with amountA := amount, amountB := (cardOf s1 serial).balance, day := liveDay s }
        amount s1

/-- A local REDEEM at its take (R59): its hold keeps two places, and GRANTED waits on the TAGSEQ record. -/
def takeLocalRedeem (card : CardNo) (check : Check) (amount : Nat) (split : Bool) (s : State) : State :=
  let serial := cardSerial card
  match (localChecks s card (some check)).orElse fun _ => holdTests s serial amount with
  | some r => refuse r s
  | none =>
    match grantTests s serial amount split with
    | .inl r => refuse r s
    | .inr grant =>
      if sparePlaces s < 2 then refuse .state s
      else
        let tag := nextTag s
        let i := (freeHold s).getD 0
        let h : LiveHold := ⟨serial, ownStation s, tag, grant, holdLifetime s, 2⟩
        let s1 := putTagSeq tag (makeHold i h (takePlaces 2 s))
        acceptLocal [.tagSeq tag]
          { plainNotice tag card .granted with
            amountA := grant, amountB := available s1 serial, isPartial := decide (grant < amount) } amount s1

/-- A local RETURN at its take (R60). -/
def takeLocalReturn (card : CardNo) (origTag : Tag) (amount : Nat) (s : State) : State :=
  let serial := cardSerial card
  let own := ownStation s
  match (localChecks s card none).orElse fun _ => returnTests s own origTag serial amount with
  | some r => refuse r s
  | none =>
    if sparePlaces s < 1 then refuse .state s
    else
      let tag := nextTag s
      let s1 := putTagSeq tag (applyReturn own tag origTag serial amount (takePlaces 1 s))
      acceptLocal [cardUpdate s1 serial, capUpdate s1, liveUpdate s1 own, .tagSeq tag]
        { plainNotice tag card .returned with amountA := amount, amountB := (cardOf s1 serial).balance, day := liveDay s }
        amount s1

/-- A local INQUIRE at its take (R60). -/
def takeLocalInquire (card : CardNo) (check : Check) (asked : Option Tag) (s : State) : State :=
  let serial := cardSerial card
  match localChecks s card (some check) with
  | some r => refuse r s
  | none =>
    if sparePlaces s < 1 then refuse .state s
    else
      let tag := nextTag s
      let s1 := putTagSeq tag (takePlaces 1 s)
      acceptLocal [.tagSeq tag]
        { plainNotice tag card .balance with
          cardState := reported s serial, amountA := (cardOf s serial).balance, amountB := available s serial,
          result := tagResult s serial (ownStation s) asked } 0 s1

/-- A local CONFIRM at its take: a claim under R47 with the hold's tag; NO-SLOT when the hold has ended (R59). The amount was
tested when the command was routed (R170). -/
def takeLocalConfirm (tag : Tag) (amount : Nat) (s : State) : State :=
  match localHold s tag with
  | none => refuse .noSlot s
  | some (i, h) =>
    if amount < 1 ∨ h.grant < amount then refuse .amount s
    else
      let own := ownStation s
      let card := cardNumber s h.serial
      let s1 := applyCapture own tag .capture h.serial amount (freeEntry i h s)
      acceptLocal [cardUpdate s1 h.serial, capUpdate s1, liveUpdate s1 own]
        { plainNotice tag card .captured with amountA := amount, day := liveDay s } amount s1

/-- Whether a dependent is the GRANTED notice of this tag. -/
def isGrantedOf (tag : Tag) : Dependent → Bool
  | .placed n _ => n.outcome == .granted && n.tag == tag
  | _ => false

/-- A notice attached behind the GRANTED notice of its tag, to enter after it at the same event (R59). -/
def attachAfterGranted (tag : Tag) (d : Dependent) : List PostingRecord → List PostingRecord
  | [] => []
  | r :: rs => if r.deps.any (isGrantedOf tag) then { r with deps := r.deps ++ [d] } :: rs else r :: attachAfterGranted tag d rs

/-- The notice of the second place of a local hold: it enters at once when GRANTED has entered, else behind GRANTED
(R59). Attached so, it carries the amount its FAULT notice shows at a store fault (log 13). -/
def secondNotice (h : LiveHold) (n : Notice) (asked : Nat) (s : State) : State :=
  if s.ps.queue.any fun r => r.deps.any (isGrantedOf h.tag) then
    { s with ps := { s.ps with queue := attachAfterGranted h.tag (.placed n asked) s.ps.queue } }
  else enterPlaced n s

/-- A local CANCEL at its take (R59). -/
def takeLocalCancel (tag : Tag) (s : State) : State :=
  match localHold s tag with
  | none => refuse .noSlot s
  | some (i, h) =>
    let n := { plainNotice tag (cardNumber s h.serial) .cancelled with amountA := h.grant }
    accept tag [] (secondNotice h n 0 (freeEntry i h s))

/-- The CTU takes a local request (R58). -/
def takeLocal (r : LocalReq) (s : State) : State :=
  match r with
  | .load card check amount => takeLocalLoad card check amount s
  | .redeem card check amount split => takeLocalRedeem card check amount split s
  | .ret card origTag amount => takeLocalReturn card origTag amount s
  | .inquire card check asked => takeLocalInquire card check asked s
  | .confirm tag amount => takeLocalConfirm tag amount s
  | .cancel tag => takeLocalCancel tag s

/-- LOCAL_REQUEST_TAKE: the CTU takes a waiting local request (R58). -/
def execLocalRequestTake (s : State) : Host.Outcome State Fault Refusal :=
  match s.tp.hand with
  | some (.localReq r) => if takesLocal s then .next (settleWaiting (takeLocal r (popLocal s))) else .next s
  | _ => .next s

/-- HOLD_EXPIRY: a live hold whose remaining life is 0 ends; a local hold's EXPIRED notice goes to its second place (R43,
R59). An EXPIRED notice still behind its GRANTED at a store fault becomes a FAULT notice of amount 0 (log 13). -/
def execHoldExpiry (entry : Fin 256) (s : State) : Host.Outcome State Fault Refusal :=
  match (holdAt s entry.val).live with
  | some h =>
    if h.life = 0 ∧ isOpen s = true then
      let s1 := freeEntry entry.val h s
      if h.places = 0 then .next (settleWaiting s1)
      else
        let n := { plainNotice h.tag (cardNumber s h.serial) .expired with amountA := h.grant }
        .next (settleWaiting (secondNotice h n 0 s1))
    else .next s
  | none => .next s

end Sys2Proof.Machine
end

