-- ==== Sys2Proof/Machine/Slots.lean ====
section
/-! DEFINITION. The Slot Unit: openings, answers, no-answer events, pending steps, CONFIRM and CANCEL on a slot, due notices
(R64 to R84). -/
namespace Sys2Proof.Machine

/-! ### Outcomes -/

/-- A notice of a slot: its tag and card number, and the outcome (R84). -/
def slotNotice (sl : Slot) (o : NoticeOutcome) : Notice := plainNotice sl.tag sl.card o

/-- A slot in NOTIFYING: timers stopped, no pending step (R66, R69). -/
def notifying (sl : Slot) : Slot :=
  { sl with state := .notifying, reply := none, holdTimer := none, pending := none }

/-- A slot's outcome decided without a record: it goes to NOTIFYING and its terminal notice falls due (R84). -/
def endSlot (n : Nat) (sl : Slot) (notice : Notice) (s : State) : State :=
  fallDue notice (some n) true (putSlot n (notifying sl) s)

/-- A slot takes a pending step and keeps its state, its reply timer stopped (R81). -/
def waitStep (n : Nat) (sl : Slot) (step : SlotStep) (s : State) : State :=
  putSlot n { sl with reply := none, pending := some step } s

/-- A slot whose filing outcome is decided: NOTIFYING, its record a pending step (R81, R82). -/
def fileStep (n : Nat) (sl : Slot) (pos : FilePos) (amount : Nat) (day : Option Day) (notice : Notice) (s : State) : State :=
  putSlot n { notifying sl with pending := some (.file pos amount day notice) } s

/-! ### Pending steps (R73, R76, R81 to R83) -/

/-- The reason the offline decision fails for, testing card limit, station cap and queue room in this order (R73). -/
def offlineFails (s : State) (sl : Slot) : Option Reason :=
  if s.tp.config.cardLimit < sl.amount + cardOffline s.dq.area.entries sl.card then some .cardLimit
  else if s.tp.config.stationCap < s.dq.area.exposure + sl.amount then some .stationCap
  else if Config.deferred ≤ s.dq.area.entries.length then some .queueFull
  else none

/-- The entry a slot makes (R73, R76, R88). -/
def entryOf (s : State) (sl : Slot) (kind : EntryKind) (origin : Origin) (holdId : Option HoldId) : DeferredEntry :=
  ⟨kind, origin, sl.card, sl.check, sl.amount, sl.tag, holdId, liveDay s, false, 0⟩

/-- An entry joins at the tail with its DEFERRED record, to which the slot's notice is attached; an OFFLINE entry raises the
exposure (R73, R76, R88, R89). -/
def joinEntry (n : Nat) (sl : Slot) (e : DeferredEntry) (notice : Notice) (s : State) : State :=
  let a : DeferredArea := ⟨s.dq.area.entries ++ [e], s.dq.area.exposure + if e.origin = .offline then e.amount else 0⟩
  makeRecord [.deferred a] [.slotNotice n notice] (putDeferred a (putSlot n (notifying sl) s))

/-- A slot's pending step made (R73, R76, R82). -/
def performSlotStep (n : Nat) (s : State) : State :=
  match slotAt s n with
  | none => s
  | some sl =>
    match sl.pending with
    | none => s
    | some .offline =>
      match offlineFails s sl with
      | some r => endSlot n sl { slotNotice sl .noAnswer with reason := r } s
      | none =>
        joinEntry n sl (entryOf s sl .post .offline none) { slotNotice sl .offlineAccepted with amountA := sl.amount } s
    | some .deferLate =>
      joinEntry n sl (entryOf s sl .post .late none) { slotNotice sl .captureDeferred with amountA := sl.amount } s
    | some .deferRetry =>
      joinEntry n sl (entryOf s sl .claimRetry .none (sl.hold.map (·.1)))
        { slotNotice sl .captureDeferred with amountA := sl.amount } s
    | some (.file pos amount day notice) =>
      let d := day.getD (liveDay s)
      let f := fileActor (cardHome sl.card) pos amount d s
      makeRecord f.2 [.slotNotice n { notice with day := d }] (putSlot n { sl with pending := none } f.1)

/-- The step is made when the free write-queue place goes to it (R81, R126). -/
def stepIfGranted (n : Nat) (s : State) : State :=
  if isGranted s (.slot n) then settleWaiting (performSlotStep n (leaveWaiting (.slot n) s)) else s

/-- A slot's cause has been taken: its step, if it has one, is made at once when a place is free and no ready step waits
(R81, R126). -/
def trySlot (n : Nat) (s : State) : State := stepIfGranted n (settleWaiting s)

/-! ### Frames of a slot -/

/-- The request frame of a slot (R68). -/
def requestBody (sl : Slot) : Body :=
  match sl.kind with
  | .redeem => .hold sl.tag sl.card sl.check (amount24 sl.amount) sl.split
  | .load => .load sl.tag sl.card sl.check (amount24 sl.amount)
  | .ret => .ret sl.tag sl.card sl.origTag (amount24 sl.amount)
  | .inquire => .inquire sl.tag sl.card sl.check sl.asked

/-- A DROP for a slot's hold enters class 2 when it has a free place, else it is not sent (R75). -/
def sendDrop (sl : Slot) (s : State) : State :=
  match sl.hold with
  | some (id, _) => if 1 ≤ txFree s .c2 then enqueue .c2 (cardHome sl.card) (.drop sl.tag id) s else s
  | none => s

/-- The end of a HELD slot by CANCEL or by its hold timer: the outcome, and a DROP (R75). -/
def releaseHeld (n : Nat) (sl : Slot) (o : NoticeOutcome) (s : State) : State :=
  endSlot n sl { slotNotice sl o with amountA := (sl.hold.map (·.2)).getD 0 } (sendDrop sl s)

/-- The tag inquiry of an unanswered LOAD, or IN-DOUBT without a class-2 place (R77). -/
def tagInquiry (n : Nat) (sl : Slot) (s : State) : State :=
  if 1 ≤ txFree s .c2 then
    enqueue .c2 (cardHome sl.card) (.inquire sl.tag sl.card sl.check (some sl.tag))
      (putSlot n { sl with state := .checking, reply := some s.tp.config.window, stalls := 0 } s)
  else endSlot n sl { slotNotice sl .inDoubt with amountA := sl.amount } s

/-! ### No-answer events (R69, R72, R76 to R80) -/

/-- A REDEEM slot in ASKING that the home did not answer, or answered DEGRADED (R72). -/
def redeemUnanswered (n : Nat) (sl : Slot) (otherwise : Notice) (s : State) : State :=
  if sl.offline then waitStep n sl .offline s else endSlot n sl otherwise s

/-- A slot's no-answer event, by its kind and state (R72, R76 to R80). In HELD and NOTIFYING no reply timer runs. -/
def noAnswer (n : Nat) (sl : Slot) (s : State) : State :=
  let inDoubt : Notice := { slotNotice sl .inDoubt with amountA := sl.amount }
  match sl.state, sl.kind with
  | .asking, .redeem => redeemUnanswered n sl (slotNotice sl .noAnswer) s
  | .asking, .load => tagInquiry n sl s
  | .asking, .ret => endSlot n sl inDoubt s
  | .asking, .inquire => endSlot n sl (slotNotice sl .noAnswer) s
  | .claiming, _ => waitStep n sl .deferRetry s
  | .checking, _ => endSlot n sl inDoubt s
  | _, _ => putSlot n { sl with reply := none } s

/-- Whether a dependent is the request frame of this slot: of its number and its tag (R68). -/
def isFrameOf (n : Nat) (tag : Tag) : Dependent → Bool
  | .slotFrame m t _ _ => m == n && t == tag
  | _ => false

/-- The reservation of a slot whose frame has not entered is withdrawn, and no frame is made when its record is durable
(R69, R116). The frame of an ended slot that had the same number stays (log 20). -/
def withdrawRequest (n : Nat) (tag : Tag) (s : State) : State :=
  if s.ps.queue.any fun r => r.deps.any (isFrameOf n tag) then
    unreserve .c2 { s with ps := { s.ps with queue := s.ps.queue.map fun r =>
      { r with deps := r.deps.filter fun d => !isFrameOf n tag d } } }
  else s

/-- Whether a slot takes its no-answer event when the line enters SILENT or STUCK (R69). -/
def waitsOnLine (sl : Slot) : Bool :=
  decide (sl.kind = .redeem) && decide (sl.state = .asking) && sl.pending.isNone

/-- The no-answer event of one slot at the line's entry to SILENT or STUCK (R69). -/
def lineNoAnswer (s : State) (n : Nat) : State :=
  match slotAt s n with
  | some sl => if waitsOnLine sl then trySlot n (noAnswer n sl (withdrawRequest n sl.tag s)) else s
  | none => s

/-- The line state enters STUCK or SILENT: LINE is set, and the REDEEM slots in ASKING take their no-answer events, in slot
order (R69, R105, R107, R108). -/
def lineFails (l : LineState) (s : State) : State :=
  let s1 := setEvent .line { s with lc := { s.lc with line := l } }
  (s1.su.slots.map (·.1)).foldl lineNoAnswer s1

/-! ### Answers (R70 to R72, R76 to R80) -/

/-- Whether a body is an answer a slot of this kind and state takes (R71). -/
def takesKind (sl : Slot) : Body → Bool
  | .holdOk .. | .holdNo .. => decide (sl.kind = .redeem) && decide (sl.state = .asking)
  | .claimOk .. | .claimNo .. => decide (sl.kind = .redeem) && decide (sl.state = .claiming)
  | .loadOk .. | .loadNo .. =>
    decide (sl.kind = .load) && (decide (sl.state = .asking) || decide (sl.state = .checking))
  | .returnOk .. | .returnNo .. => decide (sl.kind = .ret) && decide (sl.state = .asking)
  | .balance .. | .inquireNo .. =>
    (decide (sl.kind = .load) && decide (sl.state = .checking)) ||
      (decide (sl.kind = .inquire) && decide (sl.state = .asking))
  | .stall .. =>
    (decide (sl.state = .asking) && (decide (sl.kind = .load) || decide (sl.kind = .ret))) ||
      decide (sl.state = .claiming)
  | _ => false

/-- The tag an answer carries. -/
def answerTag : Body → Tag
  | .stall t | .holdOk t .. | .holdNo t .. | .claimOk t .. | .claimNo t .. | .postOk t .. | .postNo t .. | .loadOk t ..
  | .loadNo t .. | .returnOk t .. | .returnNo t .. | .balance t .. | .inquireNo t .. => t
  | _ => 0

/-- The slot that takes an answer or a STALL: the home is the source, the tag is its tag, the kind is one its state takes,
and no step is pending (R70, R71, R81). -/
def slotTaking (s : State) (src : Station) (b : Body) : Option (Nat × Slot) :=
  s.su.slots.find? fun e =>
    cardHome e.2.card == src && e.2.tag == answerTag b && takesKind e.2 b && e.2.pending.isNone

/-- How often a window may be restarted under a wait mode: 0 FIXED, 1 EXTEND, 2 SINGLE (R70). -/
def stallLimit (waitMode : Nat) : Nat := if waitMode = 0 then 0 else if waitMode = 1 then 4 else 1

/-- The reply timer and stall count after a STALL (R70, R94). A timer that does not run yet is set to W as a running one is
(log 32). -/
def stalled (c : ConfigRecord) (reply : Option Nat) (stalls : Nat) : Option Nat × Nat :=
  if stalls < stallLimit c.waitMode then (some c.window, stalls + 1) else (reply, stalls)

/-- A slot takes HOLD-OK: HELD, hold id and grant stored, slot hold timer set to the hold lifetime less W, GRANTED due
(R72). -/
def slotHeld (n : Nat) (sl : Slot) (id : HoldId) (grant avail : Nat) (isPartial : Bool) (s : State) : State :=
  fallDue { slotNotice sl .granted with amountA := grant, amountB := avail, isPartial := isPartial } (some n) false
    (putSlot n { sl with
      state := .held, hold := some (id, grant), reply := none
      holdTimer := some (holdLifetime s - s.tp.config.window) } s)

/-- A slot takes CLAIM-NO (R76). -/
def slotClaimNo (n : Nat) (sl : Slot) (r : Reason) (s : State) : State :=
  match r with
  | .late | .unknown => waitStep n sl .deferLate s
  | .degraded => waitStep n sl .deferRetry s
  | _ => endSlot n sl { slotNotice sl .refused with reason := r } (sendDrop sl s)

/-- A slot takes BALANCE: an INQUIRE ends; a LOAD in CHECKING is decided by the tag result (R78, R80). -/
def slotBalance (n : Nat) (sl : Slot) (c : CardState) (bal avail : Nat) (q : TagResult) (s : State) : State :=
  match sl.kind, q with
  | .load, .foundLoad =>
    fileStep n sl .load sl.amount none { slotNotice sl .loaded with amountA := sl.amount, amountB := bal } s
  | .load, _ => endSlot n sl { slotNotice sl .notLoaded with amountA := sl.amount } s
  | _, _ =>
    endSlot n sl { slotNotice sl .balance with cardState := c, amountA := bal, amountB := avail, result := q } s

/-- A slot takes its answer (R72, R76 to R80) or its STALL (R70). -/
def slotAnswer (n : Nat) (sl : Slot) (b : Body) (s : State) : State :=
  let no (r : Reason) : State := endSlot n sl { slotNotice sl .refused with reason := r } s
  match b with
  | .stall _ =>
    let t := stalled s.tp.config sl.reply sl.stalls
    putSlot n { sl with reply := t.1, stalls := t.2 } s
  | .holdOk _ id grant avail p => slotHeld n sl id grant.toNat avail.toNat p s
  | .holdNo _ r avail =>
    if r = .degraded then redeemUnanswered n sl { slotNotice sl .refused with reason := .degraded } s
    else if r = .funds then
      endSlot n sl { slotNotice sl .refused with reason := .funds, amountA := avail.toNat } s
    else no r
  | .claimOk _ amount day _ =>
    fileStep n sl .redemption amount.toNat (some day)
      { slotNotice sl .captured with amountA := amount.toNat, day := day } s
  | .claimNo _ r => slotClaimNo n sl r s
  | .loadOk _ bal day _ =>
    fileStep n sl .load sl.amount (some day)
      { slotNotice sl .loaded with amountA := sl.amount, amountB := bal.toNat, day := day } s
  | .loadNo _ r => no r
  | .returnOk _ bal day =>
    fileStep n sl .ret sl.amount (some day)
      { slotNotice sl .returned with amountA := sl.amount, amountB := bal.toNat, day := day } s
  | .returnNo _ r => no r
  | .balance _ c bal avail q => slotBalance n sl c bal.toNat avail.toNat q s
  | .inquireNo _ r => if sl.kind = .load then endSlot n sl { slotNotice sl .inDoubt with amountA := sl.amount } s else no r
  | _ => s

/-! ### Openings (R67, R68) -/

/-- A slot as its opening command sets it (R64, R68). -/
def newSlot (tag : Tag) (r : OpenReq) : Slot :=
  ⟨tag, r.kind, r.card, r.check, r.amount, r.split, r.offline, none, r.origTag, r.asked, .asking, none, 0, none, none⟩

/-- The lowest-numbered FREE slot (R68). -/
def freeSlotNumber (s : State) : Option Nat := lowest (fun n => (slotAt s n).isNone) Config.slots 0

/-- Whether the line state keeps a REDEEM from sending (R68). -/
def lineDown (s : State) : Bool := decide (s.lc.line = .silent) || decide (s.lc.line = .stuck)

/-- The Slot Unit takes an opening command with a write-queue place (R68). A REDEEM taken while the line is SILENT or STUCK
takes its no-answer event at the take. -/
def takeOpening (r : OpenReq) (s : State) : State :=
  let noFrame := decide (r.kind = .redeem) && lineDown s
  match freeSlotNumber s with
  | none => refuse .slots s
  | some n =>
    if !noFrame && decide (txFree s .c2 < 1) then refuse .lineBusy s
    else
      let tag := nextTag s
      let sl := newSlot tag r
      let s1 := accept tag [] (putTagSeq tag (putSlot n sl s))
      if noFrame then trySlot n (noAnswer n sl (makeRecord [.tagSeq tag] [] s1))
      else makeRecord [.tagSeq tag] [.slotFrame n tag (cardHome r.card) (requestBody sl)] (reserve .c2 s1)

/-- SLOT_OPENING: the Slot Unit takes a waiting opening command (R67, R68). -/
def execSlotOpening (s : State) : Host.Outcome State Fault Refusal :=
  match s.tp.hand with
  | some (.opening r) =>
    if isGranted s .opening then .next (settleWaiting (takeOpening r (leaveWaiting .opening s))) else .next s
  | _ => .next s

/-! ### Timers and steps -/

/-- REPLY_WINDOW_EXPIRY: a slot's reply timer at 0 is its no-answer event (R69). -/
def execReplyWindowExpiry (slot : Fin 32) (s : State) : Host.Outcome State Fault Refusal :=
  match slotAt s slot.val with
  | some sl =>
    if sl.reply = some 0 ∧ isJoined s = true then .next (settleWaiting (trySlot slot.val (noAnswer slot.val sl s)))
    else .next s
  | none => .next s

/-- SLOT_HOLD_EXPIRY: a HELD slot's hold timer at 0 gives EXPIRED and a DROP (R75). -/
def execSlotHoldExpiry (slot : Fin 32) (s : State) : Host.Outcome State Fault Refusal :=
  match slotAt s slot.val with
  | some sl =>
    if sl.state = .held ∧ sl.holdTimer = some 0 ∧ isJoined s = true then
      .next (settleWaiting (releaseHeld slot.val sl .expired s))
    else .next s
  | none => .next s

/-- OFFLINE_DECISION: a slot's pending offline decision is made (R73, R81). -/
def execOfflineDecision (slot : Fin 32) (s : State) : Host.Outcome State Fault Refusal :=
  match pendingOf s slot.val with
  | some .offline => .next (stepIfGranted slot.val s)
  | _ => .next s

/-- SLOT_DEFERRED_ENTRY: a CLAIMING slot's pending deferred entry is made (R76, R81). -/
def execSlotDeferredEntry (slot : Fin 32) (s : State) : Host.Outcome State Fault Refusal :=
  match pendingOf s slot.val with
  | some .deferLate | some .deferRetry => .next (stepIfGranted slot.val s)
  | _ => .next s

/-- ACTOR_FILING: a slot's pending filing record is made (R81 to R83). -/
def execActorFiling (slot : Fin 32) (s : State) : Host.Outcome State Fault Refusal :=
  match pendingOf s slot.val with
  | some (.file ..) => .next (stepIfGranted slot.val s)
  | _ => .next s

/-- The oldest due notice enters a free place; a terminal notice frees its slot (R84, R178). -/
def enterDue (d : DueNotice) (s : State) : State :=
  let s1 := enterNotice d.notice { s with su := { s.su with due := s.su.due.tail } }
  match d.slot with
  | some n => if d.terminal then freeSlot n s1 else s1
  | none => s1

/-- As many of the due notices, oldest first, as n free places take (R84, R178). -/
def enterDues : Nat → State → State
  | 0, s => s
  | n + 1, s =>
    match s.su.due with
    | d :: _ => enterDues n (enterDue d s)
    | [] => s

/-- NOTICE_ENTRY: the oldest waiting notice enters a free place of the completion queue (R84, R178). -/
def execNoticeEntry (s : State) : Host.Outcome State Fault Refusal :=
  match s.su.due with
  | d :: _ => if 1 ≤ freePlaces s ∧ isOpen s = true then .next (settleWaiting (enterDue d s)) else .next s
  | [] => .next s

/-! ### CONFIRM and CANCEL on a slot (R74, R75) -/

/-- The slot in HELD with this tag. -/
def heldSlot (s : State) (tag : Tag) : Option (Nat × Slot) :=
  s.su.slots.find? fun e => e.2.tag == tag && decide (e.2.state = .held)

/-- A CONFIRM handed to the Slot Unit (R74); refused on the slot it names, it shows that slot's tag (R12; log 35). -/
def confirmSlot (tag : Tag) (amount : Nat) (s : State) : State :=
  match heldSlot s tag with
  | none => refuse .noSlot s
  | some (n, sl) =>
    let grant := (sl.hold.map (·.2)).getD 0
    let id := (sl.hold.map (·.1)).getD 0
    if amount < 1 ∨ grant < amount then refuseNamed .amount tag s
    else if txFree s .c2 < 1 then refuseNamed .lineBusy tag s
    else
      let sl1 := { sl with
        amount := amount, state := .claiming, reply := some s.tp.config.window, stalls := 0, holdTimer := none }
      accept tag []
        (enqueue .c2 (cardHome sl.card) (.claim sl.tag sl.card id (amount24 amount) false) (putSlot n sl1 s))

/-- A CANCEL handed to the Slot Unit (R75). -/
def cancelSlot (tag : Tag) (s : State) : State :=
  match heldSlot s tag with
  | none => refuse .noSlot s
  | some (n, sl) => accept tag [] (releaseHeld n sl .cancelled s)

end Sys2Proof.Machine
end

