-- ==== Sys2Proof/Machine/Deferred.lean ====
section
/-! DEFINITION. The Deferred Queue: back-off, the forwarder, answers and their steps, refunds of waiting entries (R87 to
R102). -/
namespace Sys2Proof.Machine

/-! ### Back-off (R91) -/

/-- The line of a home after a failed window: 5,000 × 2^level ms, then the level rises by one up to 4. -/
def failedWindow (b : BackoffLine) : BackoffLine := ⟨min (b.level + 1) 4, some (5000 * 2 ^ b.level)⟩

/-- The line of a home after a DEGRADED answer: level 4, 80,000 ms. -/
def degradedBackoff : BackoffLine := ⟨4, some 80000⟩

/-! ### Changes of the SENT entry (R94 to R99) -/

/-- Attempts raised by one, saturating at 255 (R87). -/
def raiseAttempts (n : Nat) : Nat := min (n + 1) 255

/-- The entries with the SENT entry changed. -/
def mapSent (f : DeferredEntry → DeferredEntry) (es : List DeferredEntry) : List DeferredEntry :=
  es.map fun e => if e.sent then f e else e

/-- An entry back in WAITING after a failure (R94, R99). -/
def backToWaiting (e : DeferredEntry) : DeferredEntry := { e with sent := false, attempts := raiseAttempts e.attempts }

/-- A CLAIM-RETRY converted in place into a POST of origin LATE (R98). -/
def converted (e : DeferredEntry) : DeferredEntry :=
  { e with kind := .post, origin := .late, holdId := none, sent := false, attempts := raiseAttempts e.attempts }

/-- The area less its SENT entry; the exposure falls by an OFFLINE entry's amount (R89, R96, R97). -/
def removeSent (a : DeferredArea) (e : DeferredEntry) : DeferredArea :=
  ⟨a.entries.filter fun x => !x.sent, a.exposure - if e.origin = .offline then e.amount else 0⟩

/-- The Deferred Queue's pending step made: one posting record (R94 to R99). -/
def performDqStep (s : State) : State :=
  match s.dq.pending, sentEntry s with
  | some step, some e =>
    let s0 := { s with dq := { s.dq with pending := none } }
    match step with
    | .backToWaiting =>
      let a := { s0.dq.area with entries := mapSent backToWaiting s0.dq.area.entries }
      makeRecord [.deferred a] [] (putDeferred a s0)
    | .convert =>
      let a := { s0.dq.area with entries := mapSent converted s0.dq.area.entries }
      makeRecord [.deferred a] [] (putDeferred a s0)
    | .remove filed day loss =>
      let a := removeSent s0.dq.area e
      let f := if 0 < filed then fileActor (cardHome e.card) .redemption filed day (putDeferred a s0)
        else (putDeferred a s0, [])
      makeRecord (.deferred a :: f.2) ((loss.map fun n => Dependent.loss n).toList) f.1
  | _, _ => s

/-- The step is made when the free write-queue place goes to it (R95, R126). -/
def dqStepIfGranted (s : State) : State :=
  if isGranted s .dqPending then settleWaiting (performDqStep (leaveWaiting .dqPending s)) else s

/-- The SENT entry's change is decided: reply timer stopped, the change pending, made at once when a place is free and no
ready step waits (R95, R126). -/
def dqDecide (step : DqStep) (s : State) : State :=
  dqStepIfGranted (settleWaiting { s with dq := { s.dq with reply := none, pending := some step } })

/-! ### Answers (R94 to R99) -/

/-- Whether the kind of an answer answers the entry's kind (R95), or it is a STALL (R94). -/
def answersEntry (e : DeferredEntry) : Body → Bool
  | .postOk .. | .postNo .. => decide (e.kind = .post)
  | .claimOk .. | .claimNo .. => decide (e.kind = .claimRetry)
  | .stall .. => true
  | _ => false

/-- The SENT entry, when it takes this answer or STALL (R94, R95). -/
def dqTaking (s : State) (src : Station) (b : Body) : Option DeferredEntry :=
  if isJoined s && s.dq.pending.isNone then
    (sentEntry s).filter fun e => cardHome e.card == src && e.tag == answerTag b && answersEntry e b
  else none

/-- The LOSS notice of an entry taken short (R96). -/
def lossNotice (e : DeferredEntry) (r : Reason) (taken : Nat) (day : Day) : Notice :=
  { plainNotice e.tag e.card .loss with reason := r, amountA := e.amount, amountB := taken, day := day }

/-- The Deferred Queue takes an answer or a STALL for its SENT entry (R94 to R99). A STALL taken before the choice record is
durable sets the timer that does not run yet to W (log 32). -/
def dqAnswer (e : DeferredEntry) (b : Body) (s : State) : State :=
  let home := cardHome e.card
  match b with
  | .stall _ =>
    let t := stalled s.tp.config s.dq.reply s.dq.stalls
    { s with dq := { s.dq with reply := t.1, stalls := t.2 } }
  | .postOk _ taken short r day _ =>
    dqDecide (.remove taken.toNat day (if 0 < short.toNat then some (lossNotice e r taken.toNat day) else none))
      (putBackoff home blankBackoff s)
  | .claimOk _ amount day _ => dqDecide (.remove amount.toNat day none) (putBackoff home blankBackoff s)
  | .postNo _ _ => dqDecide .backToWaiting (putBackoff home degradedBackoff s)
  | .claimNo _ r =>
    if r = .degraded then dqDecide .backToWaiting (putBackoff home degradedBackoff s)
    else dqDecide .convert (putBackoff home blankBackoff s)
  | _ => s

/-- An answer or STALL is offered first to the Slot Unit, then to the Deferred Queue, and is discarded when neither takes it
(R120). -/
def offerAnswer (src : Station) (b : Body) (s : State) : State :=
  match slotTaking s src b with
  | some (n, sl) => trySlot n (slotAnswer n sl b s)
  | none =>
    match dqTaking s src b with
    | some e => dqAnswer e b s
    | none => s

/-! ### The forwarder (R92, R93) -/

/-- The frame an entry sends (R93). -/
def entryBody (e : DeferredEntry) : Body :=
  match e.kind with
  | .post => .post e.tag e.card e.check (amount24 e.amount) e.day e.origin
  | .claimRetry => .claim e.tag e.card (e.holdId.getD 0) (amount24 e.amount) true

/-- The forwarder's choice of an entry (R93). -/
def forward (e : DeferredEntry) (s : State) : State :=
  let a := { s.dq.area with entries := s.dq.area.entries.map fun x => if x.tag == e.tag then { x with sent := true } else x }
  makeRecord [.deferred a] [.dqFrame (cardHome e.card) (entryBody e)] (reserve .c3 (putDeferred a s))

/-- FORWARDER_CHOICE: the oldest eligible WAITING entry is marked SENT (R92, R93). -/
def execForwarderChoice (s : State) : Host.Outcome State Fault Refusal :=
  match eligible s with
  | some e => if isGranted s .forwarder then .next (settleWaiting (forward e (leaveWaiting .forwarder s))) else .next s
  | none => .next s

/-- DQ_PENDING_STEP: the Deferred Queue's waiting entry change is made (R95). -/
def execDqPendingStep (s : State) : Host.Outcome State Fault Refusal := .next (dqStepIfGranted s)

/-- DQ_WINDOW_EXPIRY: the reply timer of the SENT entry at 0 is a failed sending, unless an answer was taken first (R91,
R94). -/
def execDqWindowExpiry (s : State) : Host.Outcome State Fault Refusal :=
  match sentEntry s with
  | some e =>
    if s.dq.reply = some 0 ∧ s.dq.pending = none ∧ isJoined s = true then
      let home := cardHome e.card
      .next (settleWaiting (dqDecide .backToWaiting (putBackoff home (failedWindow (backoffOf s home)) s)))
    else .next s
  | none => .next s

/-- BACKOFF_EXPIRY: a home's back-off time at 0 frees the home; its level stays (R91, R92). -/
def execBackoffExpiry (home : Station) (s : State) : Host.Outcome State Fault Refusal :=
  if (backoffOf s home).time = some 0 ∧ isOpen s = true then
    .next (settleWaiting (putBackoff home { backoffOf s home with time := none } s))
  else .next s

/-! ### Refunds of waiting entries (R100, R101) -/

/-- The entry whose original slot tag a RETURN names. -/
def entryTagged (s : State) (tag : Tag) : Option DeferredEntry := s.dq.area.entries.find? fun e => e.tag == tag

/-- The tests of R100, the completion-queue place last. -/
def refundTests (s : State) (e : DeferredEntry) (card : CardNo) (amount : Nat) : Option Reason :=
  if card ≠ e.card then some .unknown
  else if e.kind ≠ .post ∨ e.sent = true ∨ e.attempts ≠ 0 then some .pending
  else if e.amount < amount then some .over
  else if sparePlaces s < 1 then some .state
  else none

/-- The area after a refund against an entry (R101). -/
def refundArea (a : DeferredArea) (e : DeferredEntry) (amount : Nat) : DeferredArea :=
  ⟨if e.amount = amount then a.entries.filter fun x => x.tag != e.tag
    else a.entries.map fun x => if x.tag == e.tag then { x with amount := x.amount - amount } else x,
   a.exposure - if e.origin = .offline then amount else 0⟩

/-- A RETURN against a deferred entry at its take (R100, R101); handed on to the Slot Unit when the entry is gone. Its
RETURNED notice carries the live day at the take (log 33). -/
def takeRefund (card : CardNo) (origTag : Tag) (amount : Nat) (s : State) : State :=
  match entryTagged s origTag with
  | none => takeOpening ⟨.ret, card, 0, amount, false, false, origTag, none⟩ s
  | some e =>
    match refundTests s e card amount with
    | some r => refuse r s
    | none =>
      let tag := nextTag s
      let a := refundArea s.dq.area e amount
      let n := { plainNotice tag card .returned with amountA := amount, day := liveDay s }
      accept tag []
        (makeRecord [.deferred a, .tagSeq tag] [.placed n amount] (putTagSeq tag (putDeferred a (takePlaces 1 s))))

/-- DQ_RETURN_TAKE: the Deferred Queue takes a RETURN naming a deferred entry's tag (R100). -/
def execDqReturnTake (s : State) : Host.Outcome State Fault Refusal :=
  match s.tp.hand with
  | some (.dqReturn card origTag amount) =>
    if isGranted s .dqReturn then .next (settleWaiting (takeRefund card origTag amount (leaveWaiting .dqReturn s)))
    else .next s
  | _ => .next s

end Sys2Proof.Machine
end

