-- ==== Sys2Proof/Machine/Round.lean ====
section
/-! DEFINITION. The settlement round: openings, quiet interval, tally steps, reception, computation, cut-short, RECOUNT (R142
to R154). -/
namespace Sys2Proof.Machine

/-- Q and T in ms (R172). -/
def quietTime (s : State) : Nat := s.tp.config.quiet * 1000
/-- T in ms (R172). -/
def tallyTime (s : State) : Nat := s.tp.config.tally * 1000

/-- The sending list is set to every member peer; with none the tally timer starts at once (R144, R153; log 18). -/
def startSending (s : State) : State :=
  let peers := memberPeers s
  { s with tu := { s.tu with sendList := peers, tally := if peers.isEmpty then some (tallyTime s) else none } }

/-! ### Openings (R142, R143) -/

/-- A SETTLE handed to the Tally Unit: its refusal, or the pending opening it becomes or joins, the response attached
(R142). -/
def takeSettle (day : Day) (s : State) : State :=
  match s.tu.state with
  | .quiet | .tallying | .computing => refuse .state s
  | .live | .settled =>
    if s.tu.liveDay ≠ some day then refuse .day s
    else handTo .settle { s with tu := { s.tu with opening := some ⟨day, true, true⟩ } }

/-- A TALLY-OPEN handed to the Tally Unit (R142, R151). -/
def tallyOpenArrives (src : Station) (day : Day) (s : State) : State :=
  if !isJoined s || !isMember s src then s
  else if s.tu.liveDay ≠ some day then setEvent .daySkew s
  else
    let opening := match s.tu.opening with
      | some o => some o
      | none => some ⟨day, false, false⟩
    match s.tu.state with
    | .live | .settled | .computing => { s with tu := { s.tu with opening := opening } }
    | .quiet | .tallying =>
      { s with tu := { s.tu with opening := opening, cutShort := true, quiet := none, tally := none } }

/-- A pending opening made (R143): one record of four updates. -/
def openRound (o : Opening) (s : State) : State :=
  let round : RoundPart := ⟨some (liveDay s), 0, false⟩
  let next := liveDay s + 1
  let s1 := { s with tu := { s.tu with
    closing := s.tu.live, marks := [], round := round, live := [], liveDay := some next, figures := []
    inbound := [], revised := false, state := .quiet, quiet := some (quietTime s), tally := none, opening := none
    cutShort := false, sendList := []
    heldOpen := if o.broadcast then some ⟨liveDay s, false⟩ else none } }
  makeRecord [.pairClosingAll s.tu.live [] round, .pairLiveClear, .liveDay next, .peerFiguresClear]
    [.opened (liveDay s) o.settle] s1

/-- ROUND_OPENING: a pending opening is made (R143, R152). -/
def execRoundOpening (s : State) : Host.Outcome State Fault Refusal :=
  match s.tu.opening with
  | some o =>
    if isGranted s .roundOpening then .next (settleWaiting (openRound o (leaveWaiting .roundOpening s))) else .next s
  | none => .next s

/-- TALLY_OPEN_ENTRY: the held TALLY-OPEN, ready, enters class 1, addressed to 63 (R143). -/
def execTallyOpenEntry (s : State) : Host.Outcome State Fault Refusal :=
  match s.tu.heldOpen with
  | some h =>
    if h.ready = true ∧ 1 ≤ txFree s .c1 ∧ isJoined s = true then
      .next (settleWaiting (enqueue .c1 63 (.tallyOpen h.day) { s with tu := { s.tu with heldOpen := none } }))
    else .next s
  | none => .next s

/-! ### Quiet interval and tally sending (R144, R145) -/

/-- QUIET_TIMER_EXPIRY: the quiet timer at 0 moves the round to TALLYING and sets the sending list (R144). -/
def execQuietTimerExpiry (s : State) : Host.Outcome State Fault Refusal :=
  if s.tu.state = .quiet ∧ s.tu.quiet = some 0 ∧ isJoined s = true then
    .next (settleWaiting (startSending { s with tu := { s.tu with state := .tallying, quiet := none } }))
  else .next s

/-- The comparison of a peer, when its figures are present (R147). -/
def comparePeer (st : Station) (s : State) : State :=
  match figuresOf s st with
  | some block => putMark st (compareMark (markOf s st) block (closingLine s st)) s
  | none => s

/-- The TALLY to a peer (R145). -/
def tallyBody (s : State) (st : Station) : Body := .tally (s.tu.round.day.getD 0) (closingLine s st)

/-- A tally step for the first peer of the sending list (R145): a peer not yet in the tallies-sent set is added and compared
in one record, and its TALLY enters when that is durable; for a peer in the set the TALLY enters at the step. -/
def tallyTo (st : Station) (rest : List Station) (s : State) : State :=
  let s1 := { s with tu := { s.tu with
    sendList := rest
    tally := if rest.isEmpty && !s.tu.cutShort then some (tallyTime s) else s.tu.tally } }
  if inSet s.tu.round.sent st then enqueue .c1 st (tallyBody s st) s1
  else
    let s2 := comparePeer st { s1 with tu := { s1.tu with round := { s1.tu.round with sent := addTo s1.tu.round.sent st } } }
    makeRecord [.pairClosing st (closingLine s2 st) (markOf s2 st) (some s2.tu.round)] [.tally st (tallyBody s st)]
      (reserve .c1 s2)

/-- TALLY_STEP: a TALLY for the next peer is queued (R145). -/
def execTallyStep (s : State) : Host.Outcome State Fault Refusal :=
  match s.tu.sendList with
  | p :: rest =>
    if tallyReady s && (!tallyNeedsRecord s || isGranted s .tally) then
      .next (settleWaiting (tallyTo p rest (leaveWaiting .tally s)))
    else .next s
  | [] => .next s

/-! ### Reception (R146) -/

/-- The inbound list after a TALLY arrives: it replaces one waiting from the same source, and stands last, the latest to
arrive (R146; log 19). -/
def addInbound (l : List Inbound) (i : Inbound) : List Inbound := (l.filter fun x => x.src != i.src) ++ [i]

/-- A TALLY handed to the Tally Unit: accepted into the inbound list, where it comes to wait for its reception step, or
discarded (R146). -/
def tallyArrives (src : Station) (day : Day) (block : PairLine) (s : State) : State :=
  if isJoined s && isMember s src && decide (s.tu.round.day = some day) then
    leaveWaiting (.reception src) { s with tu := { s.tu with inbound := addInbound s.tu.inbound ⟨src, block⟩ } }
  else s

/-- A reception step: the peer's figures are replaced, compared once the peer is in the tallies-sent set, in one record; in
COMPUTING and SETTLED the computation restarts (R146, R147, R150). -/
def receive (i : Inbound) (s : State) : State :=
  let s1 := { s with tu := { s.tu with
    inbound := s.tu.inbound.tail, figures := Table.put s.tu.figures i.src.toNat i.block } }
  if inSet s.tu.round.sent i.src then
    let s2 := comparePeer i.src s1
    makeRecord [.peerFigures i.src i.block, .pairClosing i.src (closingLine s2 i.src) (markOf s2 i.src) none] []
      (restartComputation s2)
  else makeRecord [.peerFigures i.src i.block] [] (restartComputation s1)

/-- RECEPTION_STEP: the oldest waiting TALLY is stored as the peer's figures (R146). -/
def execReceptionStep (s : State) : Host.Outcome State Fault Refusal :=
  match s.tu.inbound with
  | i :: _ =>
    if isGranted s (.reception i.src) then .next (settleWaiting (receive i (leaveWaiting (.reception i.src) s))) else .next s
  | [] => .next s

/-! ### Tally window, computation, cut-short (R148, R149, R151) -/

/-- TALLY_TIMER_EXPIRY: the tally timer at 0 moves the round to COMPUTING and begins the computation (R148). -/
def execTallyTimerExpiry (s : State) : Host.Outcome State Fault Refusal :=
  if s.tu.state = .tallying ∧ s.tu.tally = some 0 ∧ isJoined s = true then
    .next (settleWaiting (beginComputation { s with tu := { s.tu with tally := none } }))
  else .next s

/-- COMPUTATION_COMPLETION: the running computation's result waits for a write-queue place (R149, R164). -/
def execComputationCompletion (s : State) : Host.Outcome State Fault Refusal :=
  match s.tu.computing with
  | some i =>
    if isJoined s then
      .next (settleWaiting { s with tu := { s.tu with computing := none, result := some (computePayout i s.tu.revised) } })
    else .next s
  | none => .next s

/-- The waiting result made into a record: the payout record is replaced and the computed flag set (R149, R166). -/
def makePayout (p : PayoutRecord PairState) (s : State) : State :=
  let round := { s.tu.round with computed := true }
  makeRecord [.payout p, .roundPart round] [.payoutMade p.day]
    { s with tu := { s.tu with result := none, payout := some p, round := round } }

/-- PAYOUT_RECORD: the waiting computation result is made into a posting record (R149). -/
def execPayoutRecord (s : State) : Host.Outcome State Fault Refusal :=
  match s.tu.result with
  | some p => if isGranted s .payout then .next (settleWaiting (makePayout p (leaveWaiting .payout s))) else .next s
  | none => .next s

/-- The comparison a cut-short makes for one peer: present figures whose comparison waited for the tally step (R151). -/
def cutShortPeer (before : StationSet) (s : State) (st : Station) : State :=
  if inSet before st then s else comparePeer st s

/-- A cut-short step (R151). -/
def cutShort (s : State) : State :=
  let peers := memberPeers s
  let sent := peers.foldl addTo s.tu.round.sent
  let s1 := { s with tu := { s.tu with sendList := [], cutShort := false, round := { s.tu.round with sent := sent } } }
  let s2 := peers.foldl (cutShortPeer s.tu.round.sent) s1
  let s3 := beginComputation s2
  makeRecord [.pairClosingAll s3.tu.closing s3.tu.marks s3.tu.round] [] s3

/-- CUT_SHORT_STEP: the round is cut short and computes (R151). -/
def execCutShortStep (s : State) : Host.Outcome State Fault Refusal :=
  if s.tu.cutShort then
    if isGranted s .cutShort then .next (settleWaiting (cutShort (leaveWaiting .cutShort s))) else .next s
  else .next s

/-! ### RECOUNT (R153) -/

/-- RECOUNT handed to the Tally Unit (R153). A result that waits for its record in SETTLED is kept (log 37). -/
def takeRecount (s : State) : State :=
  if s.tu.opening.isSome then refuse .state s
  else match s.tu.state with
    | .tallying => accept 0 [] (startSending s)
    | .settled => accept 0 [] (startSending { s with tu := { s.tu with state := .tallying, revised := true } })
    | _ => refuse .state s

end Sys2Proof.Machine
end

