-- ==== Sys2Proof/Machine/Line.lean ====
section
/-! DEFINITION. The Line Controller: following the line, starting and ending frames, line states, reception and dispatch
(R105 to R121). -/
namespace Sys2Proof.Machine

/-- The Line Controller follows the line: up, and not in OFF (R105). -/
def lineOn (s : State) : Bool := isUp s && decide (s.lc.line ≠ .off)

/-- The receiver's state is changed (R106). -/
def putReceiver (r : Receiver) (s : State) : State := { s with lc := { s.lc with receiver := r } }

/-- The frame under way, if any, is no longer sent. -/
def stopSending (s : State) : State := { s with lc := { s.lc with sending := none } }

/-- The class queues, lowest class first. -/
def classes : List TxClass := [.c0, .c1, .c2, .c3]

/-- The lowest-numbered class that holds a frame (R110). -/
def headClass (s : State) : Option TxClass := classes.find? fun c => !(txOf s.lc c).frames.isEmpty

/-- The head frame of a class is changed (R112, R115). -/
def mapHead (f : TxFrame → TxFrame) (c : TxClass) (s : State) : State :=
  { s with lc := setTx s.lc c { txOf s.lc c with frames := match (txOf s.lc c).frames with
      | x :: xs => f x :: xs
      | [] => [] } }

/-- Whether a queued frame is urgent: eight lost arbitrations (R113). -/
def isUrgent (f : TxFrame) : Bool := decide (8 ≤ f.loss)

/-- The class field of a class (R4). -/
def classBits : TxClass → BitVec 2
  | .c0 => 0 | .c1 => 1 | .c2 => 2 | .c3 => 3

/-- The frame a queued frame is sent as: its class, its ordinary bit, this station as source (R4, R111, R113). -/
def wireFrame (s : State) (c : TxClass) (f : TxFrame) : RawFrame :=
  makeFrame (classBits c) (!isUrgent f) (ownStation s) f.dst f.body

/-- The bits the station is sending, from the start symbol on (R4, R111). -/
def sentBits (s : State) : Option (List Bool) :=
  s.lc.sending.bind fun c => (txOf s.lc c).frames.head?.map fun f => frameBits (wireFrame s c f)

/-! ### Line events -/

/-- IDLE_GAP: 12 recessive bits outside a followed frame: the line is idle, the stuck timer is set, and STUCK returns to
ACTIVE (R106, R107). -/
def execIdleGap (s : State) : Host.Outcome State Fault Refusal :=
  if lineOn s = true ∧ s.lc.receiver ≠ .following then
    .next (settleWaiting { s with lc := { s.lc with
      receiver := .idle, stuck := Config.stuckTime, line := if s.lc.line = .stuck then .active else s.lc.line } })
  else .next s

/-- START_SYMBOL: a dominant bit of another station on an idle line is a start symbol: this station does not start, and its
receiver follows that frame (R106, R111). -/
def execStartSymbol (s : State) : Host.Outcome State Fault Refusal :=
  if lineOn s = true ∧ s.lc.receiver = .idle then .next (putReceiver .following s) else .next s

/-- Whether the LC is ready to start: ACTIVE, idle line, not sending (R110). -/
def readyToStart (s : State) : Bool :=
  lineOn s && decide (s.lc.line = .active) && decide (s.lc.receiver = .idle) && s.lc.sending.isNone

/-- FRAME_START: the head of the lowest class that holds a frame is started; the receiver follows it (R110, R111). -/
def execFrameStart (s : State) : Host.Outcome State Fault Refusal :=
  match headClass s with
  | some c =>
    if readyToStart s then .next { s with lc := { s.lc with sending := some c, receiver := .following } } else .next s
  | none => .next s

/-- ARBITRATION_LOST: the frame under way stops and stays queued, withdrawn meanwhile or not (log 34), its loss count up by
one to at most 8; the receiver goes on following the winner (R112, R113). -/
def execArbitrationLost (s : State) : Host.Outcome State Fault Refusal :=
  match s.lc.sending with
  | some c => .next (stopSending (mapHead (fun f => { f with loss := min (f.loss + 1) 8 }) c s))
  | none => .next s

/-- BODY_CLASH: the frame under way stops and stays queued, withdrawn meanwhile or not (log 34); at its second clash an ACTIVE
line becomes SILENT; the receiver searches (R108, R115). -/
def execBodyClash (s : State) : Host.Outcome State Fault Refusal :=
  match s.lc.sending with
  | some c =>
    let again := ((txOf s.lc c).frames.head?.map (·.clash)).getD 0
    let s1 := putReceiver .searching (stopSending (mapHead (fun f => { f with clash := 1 }) c s))
    if again = 1 ∧ s.lc.line = .active then .next (settleWaiting (lineFails .silent s1)) else .next s1
  | none => .next s

/-- FRAME_SENT_WHOLE: the frame under way leaves its queue and frees its place; recessive bits are counted from its end
(R106, R114). -/
def execFrameSentWhole (s : State) : Host.Outcome State Fault Refusal :=
  match s.lc.sending with
  | some c =>
    .next (settleWaiting (putReceiver .counting (stopSending
      { s with lc := setTx s.lc c { txOf s.lc c with frames := (txOf s.lc c).frames.tail } })))
  | none => .next s

/-- STUCK_TIMER_EXPIRY: the stuck timer at 0 in ACTIVE moves the line state to STUCK and sets LINE (R107). -/
def execStuckTimerExpiry (s : State) : Host.Outcome State Fault Refusal :=
  if lineOn s = true ∧ s.lc.line = .active ∧ s.lc.stuck = 0 then .next (settleWaiting (lineFails .stuck s)) else .next s

/-! ### Reception -/

/-- Whether the receiver is following a frame of another station. -/
def hearing (s : State) : Bool := lineOn s && decide (s.lc.receiver = .following) && s.lc.sending.isNone

/-- A frame has ended by count: recessive bits are counted again (R106). -/
def frameEnded (s : State) : State := putReceiver .counting s

/-- BODY_LENGTH_DISCARD: a body length above 56 discards the frame, and the receiver searches (R5, R117). -/
def execBodyLengthDiscard (s : State) : Host.Outcome State Fault Refusal :=
  if hearing s then .next (putReceiver .searching s) else .next s

/-- Whether a body is a request, of kind 1 to 7 (R121). -/
def isRequest : Body → Bool
  | .hold .. | .claim .. | .drop .. | .post .. | .load .. | .ret .. | .inquire .. => true
  | _ => false

/-- A taken frame for this station or for every station, with a free place in the receive queue: a request stays, an answer
is offered, tally traffic goes to the Tally Unit (R119 to R121). -/
def deliver (src : Station) (b : Body) (s : State) : State :=
  match b with
  | .tallyOpen day => tallyOpenArrives src day s
  | .tally day block => tallyArrives src day block s
  | _ =>
    if isRequest b then { s with lc := { s.lc with rx := s.lc.rx ++ [⟨src, b⟩] } } else offerAnswer src b s

/-- A taken frame: the duplicate-station test, the destination, OVERRUN, delivery (R118, R119). -/
def takenFrame (src dst : Station) (b : Body) (s : State) : State :=
  if src = ownStation s then (if s.lc.line = .active then lineFails .silent s else s)
  else if dst ≠ ownStation s ∧ dst ≠ 63 then s
  else if Config.received ≤ s.lc.rx.length then setEvent .overrun s
  else deliver src b s

/-- A complete frame with this content, at its last CRC bit; none when it failed the CRC test or a test of R9. In STUCK no
frame is taken (R105, R117). -/
def completeFrame (src dst : Station) (b : Option Body) (s : State) : Host.Outcome State Fault Refusal :=
  if hearing s then
    match b with
    | some body =>
      if s.lc.line = .stuck then .next (frameEnded s)
      else .next (settleWaiting (takenFrame src dst body (frameEnded s)))
    | none => .next (frameEnded s)
  else .next s

/-- A complete frame of these fields whose CRC matched: R9's other tests, then as any complete frame. -/
def completeFields (src dst : Station) (b : Body) (s : State) : Host.Outcome State Fault Refusal :=
  completeFrame src dst (if addressOk src dst b then some b else none) s

/-- RECEIVE_QUEUE_ENTRY: a complete frame, with its CRC and the tests of R9; a request for this station enters the receive
queue (R117 to R121). -/
def execReceiveQueueEntry (frame : RawFrame) (s : State) : Host.Outcome State Fault Refusal :=
  completeFrame frame.src frame.dst (takenBody frame) s

/-- STALL received (R70, R94, R120). -/
def execStall (src dst : Station) (tag : Tag) (s : State) : Host.Outcome State Fault Refusal :=
  completeFields src dst (.stall tag) s

/-- HOLD-OK received (R72, R120). -/
def execHoldOk (src dst : Station) (tag : Tag) (id : HoldId) (grant avail : Amount) (p : Bool) (s : State) :
    Host.Outcome State Fault Refusal :=
  completeFields src dst (.holdOk tag id grant avail p) s

/-- HOLD-NO received (R72, R120). -/
def execHoldNo (src dst : Station) (tag : Tag) (r : Reason) (avail : Amount) (s : State) :
    Host.Outcome State Fault Refusal :=
  completeFields src dst (.holdNo tag r avail) s

/-- CLAIM-OK received (R76, R97, R120). -/
def execClaimOk (src dst : Station) (tag : Tag) (amount : Amount) (day : Day) (dup : Bool) (s : State) :
    Host.Outcome State Fault Refusal :=
  completeFields src dst (.claimOk tag amount day dup) s

/-- CLAIM-NO received (R76, R98, R99, R120). -/
def execClaimNo (src dst : Station) (tag : Tag) (r : Reason) (s : State) : Host.Outcome State Fault Refusal :=
  completeFields src dst (.claimNo tag r) s

/-- POST-OK received (R96, R120). -/
def execPostOk (src dst : Station) (tag : Tag) (taken short : Amount) (r : Reason) (day : Day) (dup : Bool) (s : State) :
    Host.Outcome State Fault Refusal :=
  completeFields src dst (.postOk tag taken short r day dup) s

/-- POST-NO received (R99, R120). -/
def execPostNo (src dst : Station) (tag : Tag) (r : Reason) (s : State) : Host.Outcome State Fault Refusal :=
  completeFields src dst (.postNo tag r) s

/-- LOAD-OK received (R77, R78, R120). -/
def execLoadOk (src dst : Station) (tag : Tag) (bal : Amount) (day : Day) (dup : Bool) (s : State) :
    Host.Outcome State Fault Refusal :=
  completeFields src dst (.loadOk tag bal day dup) s

/-- LOAD-NO received (R77, R78, R120). -/
def execLoadNo (src dst : Station) (tag : Tag) (r : Reason) (s : State) : Host.Outcome State Fault Refusal :=
  completeFields src dst (.loadNo tag r) s

/-- RETURN-OK received (R79, R120). -/
def execReturnOk (src dst : Station) (tag : Tag) (bal : Amount) (day : Day) (s : State) :
    Host.Outcome State Fault Refusal :=
  completeFields src dst (.returnOk tag bal day) s

/-- RETURN-NO received (R79, R120). -/
def execReturnNo (src dst : Station) (tag : Tag) (r : Reason) (s : State) : Host.Outcome State Fault Refusal :=
  completeFields src dst (.returnNo tag r) s

/-- BALANCE received (R78, R80, R120). -/
def execBalance (src dst : Station) (tag : Tag) (c : CardState) (bal avail : Amount) (q : TagResult) (s : State) :
    Host.Outcome State Fault Refusal :=
  completeFields src dst (.balance tag c bal avail q) s

/-- INQUIRE-NO received (R78, R80, R120). -/
def execInquireNo (src dst : Station) (tag : Tag) (r : Reason) (s : State) : Host.Outcome State Fault Refusal :=
  completeFields src dst (.inquireNo tag r) s

/-- TALLY-OPEN received (R121, R142). -/
def execTallyOpen (src dst : Station) (day : Day) (s : State) : Host.Outcome State Fault Refusal :=
  completeFields src dst (.tallyOpen day) s

/-- TALLY received (R121, R146). -/
def execTally (src dst : Station) (day : Day) (block : PairLine) (s : State) : Host.Outcome State Fault Refusal :=
  completeFields src dst (.tally day block) s

end Sys2Proof.Machine
end

