-- ==== Sys2Proof/Machine/Startup.lean ====
section
/-! DEFINITION. Start-up and reload (R33, R34, R104, R132 to R136, R156), power failure and the reset input (R138, R175). -/
namespace Sys2Proof.Machine

/-! ### Card areas (R33, R34) -/

/-- The stored code of a card state (R7, R17). -/
def storedStateCode : StoredState → Nat
  | .unissued => 0 | .active => 1 | .frozen => 2 | .closed => 3

/-- The stored state of a code (R17, R34). -/
def storedStateOf (n : Nat) : Option StoredState := [StoredState.unissued, .active, .frozen, .closed][n]?

/-- The stored code of a tag kind (R12, R21). -/
def tagKindCode : TagKind → Nat
  | .capture => 0 | .load => 1 | .ret => 2 | .post => 3

/-- The tag kind of a stored code (R34). -/
def tagKindOf (n : Nat) : Option TagKind := [TagKind.capture, .load, .ret, .post][n]?

/-- A recent tag as the CARD area stores it. -/
def storeTag (e : RecentTag) : StoredTag := ⟨e.station.toNat, e.tag, tagKindCode e.kind⟩

/-- A CARD area as a posting record writes it (R15, R124). -/
def storeCard (r : CardRecord) : StoredCard :=
  ⟨storedStateCode r.state, r.gen.toNat, r.balance, r.issueDay, r.expiry, r.lastDay, r.tags.map storeTag⟩

/-- A stored recent tag as the reload reads it: a station 1 to 62 and a defined kind (R34). -/
def readTag (t : StoredTag) : Option RecentTag :=
  if 1 ≤ t.station ∧ t.station ≤ 62 then (tagKindOf t.kind).map fun k => ⟨BitVec.ofNat 6 t.station, t.tag, k⟩ else none

/-- A stored recent-tag list as the reload reads it (R34). -/
def readTags : List StoredTag → Option (List RecentTag)
  | [] => some []
  | t :: ts => (readTag t).bind fun e => (readTags ts).map fun es => e :: es

/-- Whether no two elements of a list are equal. -/
def distinct {α : Type} [DecidableEq α] : List α → Bool
  | [] => true
  | x :: xs => !xs.contains x && distinct xs

/-- Whether a recent-tag list holds at most four entries, no two with one station and tag (R21, R34). -/
def tagsOk (es : List RecentTag) : Bool :=
  decide (es.length ≤ Config.recentTags) && distinct (es.map fun e => (e.station, e.tag))

/-- A stored recent-tag list that passes its tests (R34). -/
def goodTags (ts : List StoredTag) : Option (List RecentTag) := (readTags ts).filter tagsOk

/-- Whether a state with this code may carry no balance: UNISSUED or CLOSED (R34). -/
def emptyState (code : Nat) : Bool := code == 0 || code == 3

/-- The reload's test of a CARD area under a balance ceiling (R34). -/
def cardPasses (ceiling : Nat) (c : StoredCard) : Bool :=
  decide (c.state ≤ 3) && decide (c.gen ≤ 31) && (goodTags c.tags).isSome && decide (c.balance ≤ ceiling) &&
    !(emptyState c.state && decide (0 < c.balance))

/-- The record of a CARD area that passes (R33). -/
def loadCard (c : StoredCard) : CardRecord :=
  ⟨(storedStateOf c.state).getD .unissued, BitVec.ofNat 5 c.gen, c.balance, c.issueDay, c.expiry, c.lastDay,
   (goodTags c.tags).getD []⟩

/-- What is reported of a CARD area that fails: state and balance clamped to the nearest valid value; the spec does not say
how a generation above 31 and a faulty list read (R34; log 8). -/
def failedCard (ceiling : Nat) (c : StoredCard) : CardRecord where
  state := (storedStateOf (min c.state 3)).getD .closed
  gen := if c.gen ≤ 31 then BitVec.ofNat 5 c.gen else Config.failedGeneration c.gen
  balance := if emptyState (min c.state 3) then 0 else min c.balance ceiling
  issueDay := c.issueDay
  expiry := c.expiry
  lastDay := c.lastDay
  tags := match goodTags c.tags with
    | some es => es
    | none => ((Config.failedTags (c.tags.map fun t => (t.station, t.tag, t.kind))).take Config.recentTags).map
        fun e => ⟨e.1, e.2.1, (tagKindOf e.2.2.toNat).getD .capture⟩

/-- A record put before the others of a card table: a blank record is not listed. -/
def consCard (serial : Nat) (r : CardRecord) (t : Table CardRecord) : Table CardRecord :=
  if r = blankCard then t else (serial, r) :: t

/-- The card table as far as it is reloaded: up to the first CARD area that fails, that one as R34 reports it (R33, R34,
R136). -/
def reloadCards (ceiling : Nat) : Table StoredCard → Table CardRecord
  | [] => []
  | (k, c) :: t =>
    if cardPasses ceiling c then consCard k (loadCard c) (reloadCards ceiling t)
    else consCard k (failedCard ceiling c) []

/-- The liability total of a card table: the sum of the balances (R23, R33). -/
def totalBalance (t : Table CardRecord) : Nat := (t.map fun e => e.2.balance).sum

/-! ### The tests of the areas (R134) -/

/-- Whether a configuration record's fields lie in the ranges of R172, its map within stations 1 to 62. -/
def configInRange (c : ConfigRecord) : Bool :=
  isStation c.station && !c.members.getLsbD 0 && !c.members.getLsbD 63 && decide (c.lineRate ≤ 2) &&
    decide (c.feeRate ≤ 1000) && decide (30 ≤ c.holdLife ∧ c.holdLife ≤ 600) &&
    decide (50 ≤ c.window ∧ c.window ≤ 2000) && decide (c.waitMode ≤ 2) && decide (c.cardLimit ≤ 50000) &&
    decide (c.stationCap ≤ 1000000) && decide (1 ≤ c.ceiling ∧ c.ceiling ≤ Config.greatestCeiling) &&
    decide (1 ≤ c.quiet ∧ c.quiet ≤ 30) && decide (5 ≤ c.tally ∧ c.tally ≤ 120) &&
    decide (1 ≤ c.divisor ∧ c.divisor ≤ 65535)

/-- The CONFIG area's test: absent, or every field in range (R134). -/
def configPasses (st : Store) : Bool := match st.config with | some c => configInRange c | none => true

/-- The valid CONFIG (R135). -/
def validConfig (st : Store) : Option ConfigRecord := st.config.filter configInRange

/-- The balance ceiling the reload tests CARD areas under (R34, R135). -/
def reloadCeiling (st : Store) : Nat := ((validConfig st).map (·.ceiling)).getD Config.greatestCeiling

/-- The stored membership map; empty while no valid configuration is stored. -/
def storedMembers (st : Store) : StationSet := ((validConfig st).map (·.members)).getD 0

/-- The station number the DEFERRED test takes as the station's own (R104). -/
def storedStation (st : Store) : Station := ((validConfig st).map (·.station)).getD 0

/-- A capture log entry's test (R134). -/
def captureOk (e : CapEntry) : Bool :=
  isStation e.station && decide (e.serial < Config.serials) && decide (0 < e.amount) && decide (e.returned ≤ e.amount)

/-- The CAPLOG area's test (R134). -/
def capLogPasses (l : CapLog) : Bool :=
  decide (l.head < Config.captures) && decide (l.entries.length ≤ Config.captures) && l.entries.all captureOk &&
    distinct (l.entries.map fun e => (e.station, e.tag))

/-- Whether a kind and an origin go together (R87): a POST is OFFLINE or LATE, a CLAIM-RETRY has none. -/
def originFits (k : EntryKind) (o : Origin) : Bool :=
  match k with
  | .post => decide (o ≠ .none)
  | .claimRetry => decide (o = .none)

/-- A deferred entry's own tests (R104). -/
def entryOk (own : Station) (e : DeferredEntry) : Bool :=
  decide (e.tag ≠ 0) && originFits e.kind e.origin && decide (1 ≤ e.amount ∧ e.amount ≤ 2000000) &&
    isStation (cardHome e.card) && decide (cardHome e.card ≠ own)

/-- The DEFERRED area's test (R104). -/
def deferredPasses (own : Station) (a : DeferredArea) : Bool :=
  decide (a.entries.length ≤ Config.deferred) && distinct (a.entries.map (·.tag)) && a.entries.all (entryOk own) &&
    decide (a.exposure = offlineSum a.entries)

/-- The PAIR-CLOSING area's test: marks, and the round part against the stored membership map (R134). -/
def closingPasses (members : StationSet) (marks : Table Nat) (r : RoundPart) : Bool :=
  marks.all (fun e => decide (e.2 ≤ 2)) && !(r.day.isNone && (decide (r.sent ≠ 0) || r.computed)) &&
    decide (r.sent &&& ~~~members = 0)

/-- The PEER-FIGURES area's test (R134). -/
def figuresPass (members : StationSet) (t : Table PairLine) : Bool :=
  t.all fun e => decide (1 ≤ e.1 ∧ e.1 ≤ 62) && members.getLsbD e.1

/-- The PAYOUT area's test: every pair state is one of the three (R134). -/
def payoutPasses (p : Option (PayoutRecord Nat)) : Bool :=
  match p with
  | some r => r.entries.all fun e => decide (1 ≤ e.state ∧ e.state ≤ 3)
  | none => true

/-- The tests of the ten areas in the order of R133: CONFIG, LIVEDAY, TAGSEQ, CARD, CAPLOG, DEFERRED, PAIR-LIVE,
PAIR-CLOSING, PEER-FIGURES, PAYOUT. -/
def areaTests (st : Store) : List Bool :=
  [configPasses st, !((validConfig st).isSome && st.liveDay.isNone), true,
   st.cards.all (fun e => cardPasses (reloadCeiling st) e.2), capLogPasses st.capLog,
   deferredPasses (storedStation st) st.deferred, true, closingPasses (storedMembers st) st.marks st.round,
   figuresPass (storedMembers st) st.figures, payoutPasses st.payout]

/-- How many areas pass before the first that fails; 10 when the reload succeeds (R133, R136). -/
def areasPassed (st : Store) : Nat := ((areaTests st).takeWhile id).length

/-- Whether every area passes: the reload succeeds (R133, R136). -/
def reloadSucceeds (st : Store) : Bool := (areaTests st).all id

/-- Whether the area at this place in R133's order was restored. -/
def restored (st : Store) (k : Nat) : Bool := decide (k < areasPassed st)

/-! ### What the reload restores (R133, R136, R156) -/

/-- The stored code of a pair mark (R134). -/
def markCode : PairMark → Nat
  | .none => 0 | .matched => 1 | .disputed => 2

/-- The pair mark of a stored code. -/
def markOfCode (n : Nat) : PairMark := if n = 1 then .matched else if n = 2 then .disputed else .none

/-- The stored code of a pair state (R12). -/
def pairStateCode : PairState → Nat
  | .matched => 1 | .disputed => 2 | .missing => 3

/-- The pair state of a stored code. -/
def pairStateOfCode (n : Nat) : PairState := if n = 1 then .matched else if n = 2 then .disputed else .missing

/-- The pair marks as the reload reads them. -/
def readMarks (t : Table Nat) : Table PairMark :=
  (t.filter fun e => decide (markOfCode e.2 ≠ .none)).map fun e => (e.1, markOfCode e.2)

/-- A payout record with its pair states mapped. -/
def mapPayout {σ τ : Type} (f : σ → τ) (p : PayoutRecord σ) : PayoutRecord τ :=
  ⟨p.day, p.revised, p.entries.map fun e => ⟨e.station, f e.state, e.block, e.netIn, e.feeIn, e.netOut, e.line⟩,
   p.payout, p.fee, p.selfLine⟩

/-- The entries before the first that fails its tests or repeats a tag, at most 64 (R104, R136; log 9). -/
def passingPrefix (own : Station) : Nat → List Tag → List DeferredEntry → List DeferredEntry
  | 0, _, _ => []
  | _, _, [] => []
  | n + 1, seen, e :: es =>
    if entryOk own e && !seen.contains e.tag then e :: passingPrefix own n (e.tag :: seen) es else []

/-- An entry stored SENT becomes WAITING, its attempts raised by one, saturating at 255 (R104). -/
def reloadEntry (e : DeferredEntry) : DeferredEntry :=
  if e.sent then { e with sent := false, attempts := min (e.attempts + 1) 255 } else e

/-- The deferred entries after the reload (R104, R136; log 9). -/
def reloadEntries (st : Store) : List DeferredEntry :=
  if reloadSucceeds st then st.deferred.entries.map reloadEntry
  else if restored st 5 then st.deferred.entries
  else if restored st 4 then passingPrefix (storedStation st) Config.deferred [] st.deferred.entries
  else []

/-- The card table after the reload (R33, R34, R136). -/
def reloadCardTable (st : Store) : Table CardRecord :=
  if restored st 2 then reloadCards (reloadCeiling st) st.cards else []

/-- The configuration in force after the reload: the valid CONFIG, else the defaults (R135, R175). -/
def reloadConfig (st : Store) : ConfigRecord := (validConfig st).getD defaultConfig

/-- The station state after the reload (R135, R136). -/
def reloadStation (st : Store) : StationState :=
  if reloadSucceeds st then (if (validConfig st).isSome then .configured else .unconfigured) else .halted

/-- The round state rebuilt from the round part (R156). -/
def rebuiltState (r : RoundPart) : RoundState :=
  if r.day.isNone then .live else if r.computed then .settled else if r.sent = 0 then .quiet else .tallying

/-- The round part after the reload. -/
def reloadRound (st : Store) : RoundPart := if restored st 7 then st.round else blankRound

/-- The payout record after the reload (R166). -/
def reloadPayout (st : Store) : Option (PayoutRecord PairState) :=
  if restored st 9 then st.payout.map (mapPayout pairStateOfCode) else none

/-- The Tally Unit after the reload (R156): the round is rebuilt when the reload has passed. -/
def reloadTu (st : Store) : Tu :=
  { blankTu with
    liveDay := if restored st 1 then st.liveDay else none
    live := if restored st 6 then st.live else []
    closing := if restored st 7 then st.closing else []
    marks := if restored st 7 then readMarks st.marks else []
    round := reloadRound st
    figures := if restored st 8 then st.figures else []
    state := if reloadSucceeds st then rebuiltState (reloadRound st) else .live
    revised := (match reloadPayout st, (reloadRound st).day with
      | some p, some d => decide (p.day = d)
      | _, _ => false)
    payout := reloadPayout st }

/-- Steps 4 and 5 of R132: the store is reloaded, and the station state set from the reload. -/
def reloaded (s : State) : State :=
  let st := s.ps.store
  let cards := reloadCardTable st
  let entries := reloadEntries st
  { s with
    tp := { s.tp with
      startup := .none, station := reloadStation st, busy := false, hand := none
      events := if reloadSucceeds st then s.tp.events else s.tp.events ||| eventBit .store
      config := reloadConfig st, divisor := (reloadConfig st).divisor, refCount := 0 }
    ctu := { blankCtu with
      cards := cards, capLog := if restored st 4 then st.capLog else ⟨[], 0⟩, liability := totalBalance cards }
    su := { blankSu with tagSeq := if restored st 2 then st.tagSeq else 0 }
    dq := { blankDq with area := ⟨entries, offlineSum entries⟩ }
    lc := blankLc
    ps := ⟨{ st with torn := false }, [], 0, []⟩
    tu := reloadTu st }

/-- RELOAD: the store is reloaded at the end of a start-up (R132 to R136). -/
def execReload (s : State) : Host.Outcome State Fault Refusal :=
  if isRunning s = true ∧ s.tp.startup = .reloading then .next (reloaded s) else .next s

/-! ### Start-up (R132, R174, R175) -/

/-- The volatile state of every block but the Till Port and the Posting Store at its reset value (R63, R86, R104, R122, R133,
R156). -/
def clearBlocks (s : State) : State :=
  { s with ctu := blankCtu, su := blankSu, dq := blankDq, lc := blankLc, tu := blankTu }

/-- The Posting Store with nothing queued, no write under way and nothing waiting (R132). -/
def clearQueue (s : State) : State := { s with ps := { s.ps with queue := [], timer := 0, waiting := [] } }

/-- Steps 2 and 3 of R132: records and dependents are discarded, the queues emptied, the cause recorded, the response record,
event set and mask reset; the reload comes next. -/
def startUpSteps (cause : Cause) (s : State) : State :=
  let s1 := clearQueue (clearBlocks s)
  { s1 with tp := { s1.tp with
      startup := .reloading, cause := cause, busy := true, hand := none, response := blankResponse, notices := []
      taken := 0, events := 0, mask := 0, allMask := false } }

/-- A RESET taken: with a write under way start-up first lets it end; the blocks and the command in hand go at once, and no
dependent is released (R122, R132, R174; log 17). -/
def beginReset (s : State) : State :=
  let s1 := { s with tp := { s.tp with refCount := 0, intake := .taken } }
  match s1.ps.queue with
  | [] => startUpSteps .command s1
  | r :: _ =>
    let s2 := clearBlocks s1
    { s2 with
      tp := { s2.tp with startup := .finishing, busy := true, hand := none }
      ps := { s2.ps with queue := [{ r with deps := [] }], waiting := [] } }

/-- A start-up with cause POWER: the divisor is the default until the reload ends (R175, R184). -/
def beginPower (s : State) : State :=
  startUpSteps .power { s with tp := { s.tp with
    station := .unconfigured, config := defaultConfig, divisor := Config.defaultDivisor, refCount := 0, intake := .none } }

/-- A stopped part: the write under way is torn, and every volatile state is gone (R128, R138, R175; log 23). -/
def stopped (s : State) : State :=
  let s1 := { s with ps := { s.ps with store := { s.ps.store with torn := s.ps.store.torn || !s.ps.queue.isEmpty } } }
  { clearQueue (clearBlocks s1) with tp := { resetTp with powered := s.tp.powered, rstHeld := s.tp.rstHeld } }

/-- POWER_UP: power is applied; start-up begins unless the reset pin is held (R132, R175). -/
def execPowerUp (s : State) : Host.Outcome State Fault Refusal :=
  if s.tp.powered then .next s
  else
    let s1 := { s with tp := { s.tp with powered := true } }
    if s.tp.rstHeld then .next s1 else .next (beginPower s1)

/-- POWER_FAILURE: the station ends at the event reached; the record under way is torn (R128, R138). -/
def execPowerFailure (s : State) : Host.Outcome State Fault Refusal :=
  if s.tp.powered then .next (stopped { s with tp := { s.tp with powered := false } }) else .next s

/-- RESET_INPUT_ASSERT: the reset pin stops the part; a write under way is torn (R128, R175). -/
def execResetInputAssert (s : State) : Host.Outcome State Fault Refusal :=
  if s.tp.rstHeld then .next s else .next (stopped { s with tp := { s.tp with rstHeld := true } })

/-- RESET_INPUT_RELEASE: a start-up with cause POWER begins (R175). -/
def execResetInputRelease (s : State) : Host.Outcome State Fault Refusal :=
  if s.tp.rstHeld then
    let s1 := { s with tp := { s.tp with rstHeld := false } }
    if s.tp.powered then .next (beginPower s1) else .next s1
  else .next s

end Sys2Proof.Machine
end

