-- ==== Sys2Proof/Machine/Records.lean ====
section
/-! DEFINITION. The till records: notice record (R13), the data of the response record (R12), the response record itself. -/
namespace Sys2Proof.Machine

/-- A whole number as an n-byte field (R1). -/
def field (n v : Nat) : List Byte := bytesOf n v

/-- A figure as a 3-byte amount field (R1; log 6). -/
def amountField (v : Nat) : List Byte := bytesOf 3 (amount24 v).toNat

/-- A signed 48-bit field (R1). -/
def sumField (v : Sum48) : List Byte := bytesOf 6 v.toNat

/-- A present flag and the day it governs (R12, R32, R176); a day that is absent reads 0 (log 38). -/
def optionDay (d : Option Day) : List Byte := flagByte d.isSome :: bytesOf 2 (d.getD 0).toNat

/-! ### Completion notices (R13) -/

/-- The code of an outcome (R13). -/
def outcomeCode : NoticeOutcome → Byte
  | .empty => 0 | .granted => 1 | .captured => 2 | .captureDeferred => 3 | .offlineAccepted => 4 | .refused => 5
  | .noAnswer => 6 | .cancelled => 7 | .expired => 8 | .loaded => 9 | .notLoaded => 10 | .returned => 11
  | .inDoubt => 13 | .balance => 14 | .fault => 15 | .loss => 16 | .sold => 17 | .closed => 18 | .stateSet => 19

/-- The flags of a notice: bit 0 partial, bits 1 and 2 the tag result (R13). -/
def noticeFlags (n : Notice) : Byte := flagByte n.isPartial + 2 * tagResultCode n.result

/-- The 21 bytes of a notice (R13). -/
def noticeBytes (n : Notice) : List Byte :=
  bytesOf 2 n.tag.toNat ++ [outcomeCode n.outcome, reasonCode n.reason, cardStateCode n.cardState, noticeFlags n] ++
    bytesOf 5 n.card.toNat ++ bytesOf 2 n.check.toNat ++ amountField n.amountA ++ amountField n.amountB ++
    bytesOf 2 n.day.toNat

/-- The notice record with outcome EMPTY: every field 0 (R13, R179). -/
def emptyNotice : Notice := plainNotice 0 0 .empty

/-! ### STATUS (R12, R176) -/

/-- The code of a station state (R12). -/
def stationCode : StationState → Byte
  | .unconfigured => 0 | .configured => 1 | .joined => 2 | .halted => 3

/-- The code of a reset cause (R12). -/
def causeCode : Cause → Byte
  | .power => 0 | .command => 1

/-- The code of a line state (R12). -/
def lineCode : LineState → Byte
  | .off => 0 | .active => 1 | .stuck => 2 | .silent => 3

/-- The code of a round state (R12). -/
def roundCode : RoundState → Byte
  | .live => 0 | .quiet => 1 | .tallying => 2 | .computing => 3 | .settled => 4

/-- The station number STATUS reports: 0 while UNCONFIGURED (R135, R176). -/
def statusStation (s : State) : Station := if s.tp.station = .unconfigured then 0 else ownStation s

/-- The 23 data bytes of STATUS (R12, R176). -/
def statusBytes (s : State) : List Byte :=
  [stationCode s.tp.station, causeCode s.tp.cause, (statusStation s).setWidth 8, lineCode s.lc.line,
   roundCode s.tu.state] ++ bytesOf 2 (liveDay s).toNat ++ optionDay s.tu.round.day ++ field 6 s.ctu.liability ++
    amountField s.dq.area.exposure ++
    field 1 s.su.slots.length ++ field 1 s.dq.area.entries.length ++ field 1 s.tp.notices.length ++
    field 1 s.ps.queue.length

/-! ### READ-CARD (R12, R32) -/

/-- The check code READ-CARD reports: 0 for an UNISSUED serial and while UNCONFIGURED (R20, R32). -/
def reportedCheck (s : State) (serial : Nat) : Check :=
  if (cardOf s serial).state = .unissued ∨ s.tp.station = .unconfigured then 0 else checkOf s serial

/-- One recent-tag entry of READ-CARD (R12). -/
def tagBytes (e : RecentTag) : List Byte := field 1 e.station.toNat ++ bytesOf 2 e.tag.toNat ++ field 1 (tagKindCode e.kind)

/-- The recent-tag entries, newest first, unused entries 0 (R12). -/
def tagListBytes (es : List RecentTag) : List Byte :=
  (es.take Config.recentTags).flatMap tagBytes ++ List.replicate (4 * (Config.recentTags - es.length)) 0

/-- The 36 data bytes of READ-CARD (R12, R32). -/
def cardBytes (s : State) (serial : Nat) : List Byte :=
  let r := cardOf s serial
  field 2 serial ++ [cardStateCode (reported s serial)] ++ field 1 r.gen.toNat ++
    bytesOf 2 (reportedCheck s serial).toNat ++ amountField r.balance ++ amountField (heldOf s serial) ++
    bytesOf 2 r.issueDay.toNat ++ optionDay r.expiry ++ bytesOf 2 r.lastDay.toNat ++ field 1 r.tags.length ++
    tagListBytes r.tags

/-! ### READ-CAPLOG, READ-DEFERRED, READ-PAYOUT (R12, R50, R102, R167) -/

/-- The 14 data bytes of READ-CAPLOG: position 0 the newest entry; beyond the entries all 0 (R12, R50). -/
def capBytes (l : CapLog) (position : Nat) : List Byte :=
  match l.entries[position]? with
  | some e => [1] ++ field 1 e.station.toNat ++ bytesOf 2 e.tag.toNat ++ field 2 e.serial ++ amountField e.amount ++
      amountField e.returned ++ bytesOf 2 e.day.toNat
  | none => List.replicate 14 0

/-- The code of an entry kind (R12). -/
def entryKindCode : EntryKind → Byte
  | .post => 0 | .claimRetry => 1

/-- The 21 data bytes of READ-DEFERRED: position 0 the oldest entry; beyond the entries all 0 (R12, R102). -/
def deferredBytes (es : List DeferredEntry) (position : Nat) : List Byte :=
  match es[position]? with
  | some e => [1, entryKindCode e.kind, originCode e.origin, flagByte e.sent] ++ field 1 e.attempts ++
      bytesOf 5 e.card.toNat ++ bytesOf 2 e.check.toNat ++ amountField e.amount ++ bytesOf 2 e.tag.toNat ++
      bytesOf 2 (e.holdId.getD 0).toNat ++ bytesOf 2 e.day.toNat
  | none => List.replicate 21 0

/-- The 64 data bytes of READ-PAYOUT index 0 (R12, R167). -/
def payoutSummary (p : Option (PayoutRecord PairState)) : List Byte :=
  match p with
  | some r => [flagByte true + 2 * flagByte r.revised] ++ bytesOf 2 r.day.toNat ++ field 1 r.entries.length ++
      sumField r.payout ++ sumField r.fee ++ blockBytes r.selfLine
  | none => List.replicate 64 0

/-- The entry READ-PAYOUT shows for a station: none for this station's own number, for a station that is not a member, and
where the record holds no entry (R167). -/
def payoutEntry (s : State) (st : Station) : Option (PeerEntry PairState) :=
  if isMember s st = true ∧ st ≠ ownStation s then
    s.tu.payout.bind fun p => p.entries.find? fun e => e.station == st
  else none

/-- The 75 data bytes of READ-PAYOUT index 1 to 62 (R12, R167). -/
def payoutBytes (s : State) (st : Station) : List Byte :=
  match payoutEntry s st with
  | some e => [1] ++ field 1 e.station.toNat ++ field 1 (pairStateCode e.state) ++ blockBytes e.block ++ sumField e.netIn ++
      sumField e.feeIn ++ sumField e.netOut ++ sumField e.line
  | none => List.replicate 75 0

/-! ### READ-EVENTS and the response record (R12) -/

/-- The 3 data bytes of READ-EVENTS (R12, R180). -/
def eventBytes (s : State) : List Byte := [s.tp.events, s.tp.mask, flagByte s.tp.allMask]

/-- The code of a result (R12). -/
def resultCode : Result → Byte
  | .none => 0 | .pending => 1 | .accepted => 2 | .refused => 3

/-- The bytes of the response record: its 7-byte head, then the data (R12). -/
def responseBytes (r : Response) : List Byte :=
  [r.seq, r.code, resultCode r.result, reasonCode r.reason] ++ bytesOf 2 r.tag.toNat ++ field 1 r.data.length ++ r.data

end Sys2Proof.Machine
end

