-- ==== Sys2Proof/Machine/Port.lean ====
section
/-! DEFINITION. The SPI port as bytes (R10, R11): the command a transfer writes and the bytes the part shifts out. A transfer
is given as the bytes the till clocks after SEL falls. -/
namespace Sys2Proof.Machine

/-- The command a transfer writes (R10): transfer byte 0x01, then code, sequence number, length n and n parameter bytes;
nothing when it ends before the last parameter byte, or for another transfer byte. -/
def writtenCommand : List Byte → Option Instr
  | t :: code :: seq :: n :: ps =>
    if t = 0x01 ∧ n.toNat ≤ ps.length then some (decodeCommand code seq (ps.take n.toNat)) else none
  | _ => none

/-- The transfer that writes a command (R10, R11). -/
def commandTransfer (code seq : Byte) (ps : List Byte) : List Byte :=
  [0x01, code, seq, BitVec.ofNat 8 ps.length] ++ ps

/-- The code of the intake byte (R10); 0x00 before any command write. -/
def intakeByte : Intake → Byte
  | .none => 0x00 | .taken => 0x00 | .busy => 0x01 | .malformed => 0x02

/-- The bytes shifted out in a response read of n bytes after the transfer byte: the record, then 0x00 (R10). -/
def responseRead (s : State) (n : Nat) : List Byte :=
  (responseBytes s.tp.response).take n ++ List.replicate (n - (responseBytes s.tp.response).length) 0

/-- The bytes shifted out in a command write while the till clocks these bytes after the transfer byte (R10): during the
trailing byte, behind code, sequence number, length n and n parameters, the intake result as the write has left it; the spec
gives no value for the others (log 28). -/
def writeReply (after : State) (sent : List Byte) : List Byte :=
  (List.range sent.length).map fun i =>
    if 3 ≤ i ∧ i = 3 + (sent.getD 2 0).toNat then intakeByte after.tp.intake else Config.writeFiller i

/-- The bytes shifted out in a transfer, `sent` being the bytes the till clocks after the transfer byte (R10): first the port
status byte, then for 0x01 the intake result, for 0x02 the response record, for any other byte 0x00. `before` is the part as
the transfer begins, `after` as its command write has left it at the last parameter byte. A response read shows the record as
it stood when the transfer began (log 39). -/
def shiftedOut (before after : State) (transfer : Byte) (sent : List Byte) : List Byte :=
  portStatus before ::
    if transfer = 0x01 then writeReply after sent
    else if transfer = 0x02 then responseRead before sent.length
    else List.replicate sent.length 0

end Sys2Proof.Machine
end

