-- ==== Sys2Proof/Machine/Configure.lean ====
section
/-! DEFINITION. CONFIGURE: its tests, the three stages that settle a configuration record, its posting record (R36, R90, R137,
R171, R172). -/
namespace Sys2Proof.Machine

/-- A value taken to the nearer limit of a range (R172). -/
def clampTo (lo hi v : Nat) : Nat := max lo (min v hi)

/-- Whether the present map marks the field with present bit k (R11). -/
def isPresent (p : ConfigParams) (k : Nat) : Bool := p.present.getLsbD k

/-- The membership map with bits 0 and 63 ignored (R172). -/
def mapBits (m : StationSet) : StationSet := m &&& 0x7FFFFFFFFFFFFFFE

/-- What a CONFIGURE asks for: each field as sent when present, its default when absent (R171, R172). -/
def askedConfig (p : ConfigParams) : ConfigRecord :=
  let own : Station := p.station.setWidth 6
  let pick (k sent dflt : Nat) : Nat := if isPresent p k then sent else dflt
  { station := own, mall := p.mall, seed := p.seed
    members := if isPresent p 0 then mapBits p.members else addTo 0 own
    lineRate := pick 1 p.lineRate.toNat 1
    feeRate := pick 2 p.feeRate.toNat 150
    holdLife := pick 3 p.holdLife.toNat 120
    window := pick 4 p.window.toNat 400
    waitMode := pick 5 p.waitMode.toNat 1
    cardLimit := pick 6 p.cardLimit.toNat 5000
    stationCap := pick 7 p.stationCap.toNat 50000
    ceiling := pick 8 p.ceiling.toNat 500000
    quiet := pick 9 p.quiet.toNat 3
    tally := pick 10 p.tally.toNat 30
    divisor := pick 11 p.divisor.toNat Config.defaultDivisor
    startDay := if isPresent p 12 then p.startDay else 0 }

/-- The record with every field clamped to its range, this station's own number a member (R172). -/
def clampConfig (c : ConfigRecord) : ConfigRecord :=
  { c with
    members := addTo c.members c.station
    lineRate := clampTo 0 2 c.lineRate
    feeRate := clampTo 0 1000 c.feeRate
    holdLife := clampTo 30 600 c.holdLife
    window := clampTo 50 2000 c.window
    waitMode := clampTo 0 2 c.waitMode
    cardLimit := clampTo 0 50000 c.cardLimit
    stationCap := clampTo 0 1000000 c.stationCap
    ceiling := clampTo 1 2000000 c.ceiling
    quiet := clampTo 1 30 c.quiet
    tally := clampTo 5 120 c.tally
    divisor := clampTo 1 65535 c.divisor }

/-- Whether any card record is not UNISSUED while a valid configuration is stored (R36). -/
def cardsBind (s : State) : Bool :=
  s.ps.store.config.isSome && s.ctu.cards.any fun e => decide (e.2.state ≠ .unissued)

/-- The largest balance in the card table (R36). -/
def largestBalance (s : State) : Nat := (s.ctu.cards.map fun e => e.2.balance).foldl max 0

/-- The largest per-card OFFLINE total in the queue (R90). -/
def largestOffline (es : List DeferredEntry) : Nat := (es.map fun e => cardOffline es e.card).foldl max 0

/-- The set of the stations a list names. -/
def setOf (l : List Nat) : StationSet := l.foldl (fun m n => m ||| (1#64 <<< n)) 0

/-- The stations a membership map is given (R90, R171): homes with a deferred entry, the tallies-sent set, stations with peer
figures, stations whose live or closing line holds a figure other than 0. -/
def givenMembers (s : State) : StationSet :=
  setOf (s.dq.area.entries.map fun e => (cardHome e.card).toNat) ||| s.tu.round.sent ||| setOf (s.tu.figures.map (·.1)) |||
    setOf (s.tu.live.map (·.1)) ||| setOf (s.tu.closing.map (·.1))

/-- The record with the values of R36, R90 and R171 raised. -/
def raiseConfig (s : State) (c : ConfigRecord) : ConfigRecord :=
  let es := s.dq.area.entries
  { c with
    members := mapBits (c.members ||| givenMembers s)
    ceiling := if cardsBind s then max c.ceiling (largestBalance s) else c.ceiling
    stationCap := if es.isEmpty then c.stationCap else max c.stationCap s.dq.area.exposure
    cardLimit := if es.isEmpty then c.cardLimit else max c.cardLimit (largestOffline es) }

/-- The configuration record a CONFIGURE settles into (R171). -/
def settleConfig (s : State) (p : ConfigParams) : ConfigRecord := raiseConfig s (clampConfig (askedConfig p))

/-- Bit k of a clamped map. -/
def changedBit (k : Nat) (changed : Bool) : BitVec 16 := if changed then 1#16 <<< k else 0

/-- The clamped map: bit k where the settled field differs from the value sent, or, for a field sent absent, from its default
(R12, R171). The map of a CONFIGURE sent absent holds the own number already. -/
def clampedMap (asked settled : ConfigRecord) : BitVec 16 :=
  changedBit 0 (asked.members != settled.members) ||| changedBit 1 (asked.lineRate != settled.lineRate) |||
    changedBit 2 (asked.feeRate != settled.feeRate) ||| changedBit 3 (asked.holdLife != settled.holdLife) |||
    changedBit 4 (asked.window != settled.window) ||| changedBit 5 (asked.waitMode != settled.waitMode) |||
    changedBit 6 (asked.cardLimit != settled.cardLimit) ||| changedBit 7 (asked.stationCap != settled.stationCap) |||
    changedBit 8 (asked.ceiling != settled.ceiling) ||| changedBit 9 (asked.quiet != settled.quiet) |||
    changedBit 10 (asked.tally != settled.tally) ||| changedBit 11 (asked.divisor != settled.divisor)

/-- The tests of R171, in order. -/
def configureTests (s : State) (p : ConfigParams) : Option Reason :=
  let stored := s.ps.store.config.getD defaultConfig
  let own : Station := p.station.setWidth 6
  if p.station = 0 ∨ 62 < p.station.toNat then some .station
  else if cardsBind s = true ∧ ¬ (own = stored.station ∧ p.mall = stored.mall ∧ p.seed = stored.seed) then some .state
  else if s.dq.area.entries.isEmpty = false ∧ own ≠ stored.station then some .state
  else none

/-- The members the settled map adds while a closing day is present with a tallies-sent set that is not empty or a computed
flag that is set: they join the tallies-sent set (R171). -/
def joiningMembers (s : State) (c : ConfigRecord) : StationSet :=
  if s.tu.round.day.isSome && (decide (s.tu.round.sent ≠ 0) || s.tu.round.computed) then
    c.members &&& ~~~s.tp.config.members &&& ~~~(addTo 0 c.station)
  else 0

/-- CONFIGURE's record is made: the configuration replaces the one in memory, the divisor comes into force and the period
count restarts; the response waits on the record (R137, R171, R184). -/
def makeConfigure (c : ConfigRecord) (clamped : BitVec 16) (joining : StationSet) (s : State) : State :=
  let round := { s.tu.round with sent := s.tu.round.sent ||| joining }
  let first := s.ps.store.liveDay.isNone
  let s1 := handTo .configureMade { s with
    tp := { s.tp with config := c, divisor := c.divisor, refCount := 0 }
    tu := { s.tu with round := round, liveDay := if first then some c.startDay else s.tu.liveDay } }
  makeRecord ([.config c] ++ (if first then [.liveDay c.startDay] else []) ++ (if joining = 0 then [] else [.roundPart round]))
    [.configured clamped] s1

/-- The waiting CONFIGURE is made when the free place goes to it (R126, R137; log 27). -/
def tryConfigure (s : State) : State :=
  match s.tp.hand with
  | some (.configure c clamped joining) =>
    if isGranted s .configure then settleWaiting (makeConfigure c clamped joining (leaveWaiting .configure s)) else s
  | _ => s

/-- A CONFIGURE that the station state admits (R171). -/
def takeConfigure (p : ConfigParams) (s : State) : State :=
  match configureTests s p with
  | some r => refuse r s
  | none =>
    let c := settleConfig s p
    tryConfigure (settleWaiting (handTo (.configure c (clampedMap (askedConfig p) c) (joiningMembers s c)) s))

end Sys2Proof.Machine
end

