-- ==== Sys2Proof/Machine/Store.lean ====
section
/-! DEFINITION. The Posting Store's write: what a durable record leaves in the store, the release of dependents (R125, R127,
R128), the store fault (R62, R85, R103, R129, R130, R155). -/
namespace Sys2Proof.Machine

/-! ### Durable areas (R123, R124) -/

/-- The store after one area update of a durable record (R123, R128). -/
def applyUpdate (st : Store) : AreaUpdate → Store
  | .config c => { st with config := some c }
  | .liveDay d => { st with liveDay := some d }
  | .tagSeq t => { st with tagSeq := t }
  | .card serial r => { st with cards := Table.set blankStoredCard st.cards serial (storeCard r) }
  | .capLog l => { st with capLog := l }
  | .pairLive n l => { st with live := Table.set blankLine st.live n.toNat l }
  | .pairLiveClear => { st with live := [] }
  | .pairClosing n l m round =>
    { st with
      closing := Table.set blankLine st.closing n.toNat l, marks := Table.set 0 st.marks n.toNat (markCode m)
      round := round.getD st.round }
  | .pairClosingAll t m round =>
    { st with closing := t, marks := m.map fun e => (e.1, markCode e.2), round := round }
  | .roundPart round => { st with round := round }
  | .peerFigures n l => { st with figures := Table.put st.figures n.toNat l }
  | .peerFiguresClear => { st with figures := [] }
  | .deferred a => { st with deferred := a }
  | .payout p => { st with payout := some (mapPayout pairStateCode p) }

/-- The store after every update of a durable record (R128). -/
def applyRecord (st : Store) (r : PostingRecord) : Store := { r.updates.foldl applyUpdate st with torn := false }

/-! ### Release (R127) -/

/-- The index of the live local hold with this tag whose GRANTED notice has not entered (R59). -/
def enteredHold (s : State) (tag : Tag) : State :=
  match localHold s tag with
  | some (i, h) => putHold i ⟨(holdAt s i).gen, some { h with places := 1 }⟩ s
  | none => s

/-- A notice with a taken place enters it; a GRANTED notice leaves its hold with one place (R59, R178). -/
def releasePlaced (n : Notice) (s : State) : State :=
  if n.outcome = .granted then enteredHold (enterPlaced n s) n.tag else enterPlaced n s

/-- A slot's request frame enters its reserved place and starts its reply timer (R68; log 20). -/
def releaseSlotFrame (slot : Nat) (tag : Tag) (dst : Station) (b : Body) (s : State) : State :=
  let s1 := enterReserved .c2 dst b s
  match slotAt s slot with
  | some sl =>
    if sl.tag = tag ∧ sl.state = .asking ∧ sl.pending = none then putSlot slot { sl with reply := some s.tp.config.window, stalls := 0 } s1
    else s1
  | none => s1

/-- The Deferred Queue's frame enters its reserved place, and starts the reply timer of its entry: the SENT entry, no answer
of which has been taken (R93, R95). -/
def releaseDqFrame (dst : Station) (b : Body) (s : State) : State :=
  let s1 := enterReserved .c3 dst b s
  if (sentEntry s).any (fun e => cardHome e.card == dst && entryBody e == b) && s.dq.pending.isNone then
    { s1 with dq := { s1.dq with reply := some s.tp.config.window, stalls := 0 } }
  else s1

/-- A durable payout record sets SETTLED, and the round state becomes SETTLED unless a restarted computation runs or an opening
has been made (R149; log 12). -/
def releasePayout (day : Day) (s : State) : State :=
  let s1 := setEvent .settled s
  if s.tu.state = .computing ∧ s.tu.computing = none ∧ s.tu.round.day = some day then
    { s1 with tu := { s1.tu with state := .settled } }
  else s1

/-- A durable opening record: the SETTLE it carries is accepted, and the held TALLY-OPEN becomes ready (R143). -/
def releaseOpened (day : Day) (settle : Bool) (s : State) : State :=
  let s1 := if settle then accept 0 [] s else s
  { s1 with tu := { s1.tu with
    heldOpen := s1.tu.heldOpen.map fun h => if h.day = day then { h with ready := true } else h } }

/-- A dependent released at its record's durability (R127). -/
def release (d : Dependent) (s : State) : State :=
  match d with
  | .answer dst b => enterReserved .c0 dst b s
  | .placed n _ => releasePlaced n s
  | .slotFrame slot tag dst b => releaseSlotFrame slot tag dst b s
  | .slotNotice slot n => fallDue n (some slot) true s
  | .dqFrame dst b => releaseDqFrame dst b s
  | .loss n => setEvent .loss (fallDue n none false s)
  | .configured clamped =>
    accept 0 (bytesOf 2 clamped.toNat) { s with tp := { s.tp with station := .configured } }
  | .opened day settle => releaseOpened day settle s
  | .tally dst b => enterReserved .c1 dst b s
  | .payoutMade day => releasePayout day s

/-- Every dependent of a record, in the order attached (R127). -/
def releaseAll (ds : List Dependent) (s : State) : State := ds.foldl (fun t d => release d t) s

/-- The head record durable: its updates stand, it leaves the queue, and the next write begins (R125, R128). -/
def commitHead (r : PostingRecord) (rest : List PostingRecord) (s : State) : State :=
  { s with ps := { s.ps with
    store := applyRecord s.ps.store r, queue := rest
    timer := if rest.isEmpty then 0 else Config.writeTimeout } }

/-- WRITE_COMPLETION: the write under way completes: the head is durable, and its dependents are released (R125, R127). In step
1 of a start-up the start-up goes on (R132). -/
def execWriteCompletion (s : State) : Host.Outcome State Fault Refusal :=
  match s.ps.queue with
  | r :: rest =>
    if isRunning s then
      let s1 := commitHead r rest s
      if s.tp.startup = .finishing then .next (startUpSteps .command s1)
      else .next (tryConfigure (settleWaiting (releaseAll r.deps s1)))
    else .next s
  | [] => .next s

/-! ### The store fault (R129, R130) -/

/-- The answer a store fault leaves in place of a waiting one: the DEGRADED refusal of its kind; a BALANCE with tag result
NOT-ASKED or NOT-FOUND unchanged (R62). -/
def degraded : Body → Body
  | .claimOk t .. | .claimNo t _ => .claimNo t .degraded
  | .postOk t .. | .postNo t _ => .postNo t .degraded
  | .loadOk t .. | .loadNo t _ => .loadNo t .degraded
  | .returnOk t .. | .returnNo t _ => .returnNo t .degraded
  | .balance t c b a q =>
    if q = .notAsked ∨ q = .notFound then .balance t c b a q else .inquireNo t .degraded
  | b => b

/-- Whether a placed notice is the GRANTED notice of a hold still live, which ends with that hold (R62). -/
def grantedOfLive (s : State) (n : Notice) : Bool := decide (n.outcome = .granted) && (localHold s n.tag).isSome

/-- What becomes of a discarded record's dependent at the store fault; a notice of a local hold's second place that waits
behind GRANTED becomes a FAULT notice as GRANTED does (R62, R103, R130; log 13). -/
def faultDependent (s : State) (d : Dependent) : State :=
  match d with
  | .answer dst b => enterReserved .c0 dst (degraded b) s
  | .placed n asked => if grantedOfLive s n then s else enterPlaced (faultNotice n.tag n.card asked) s
  | .loss n => fallDue (faultNotice n.tag n.card n.amountA) none false s
  | _ => s

/-- A live local hold ended at the store fault (R62): FAULT with the grant in its first place, the second freed, while GRANTED had
not entered; else in its second place. -/
def faultHold (s : State) (e : Nat × LiveHold) : State :=
  let n := faultNotice e.2.tag (cardNumber s e.2.serial) e.2.grant
  let s1 := freeEntry e.1 e.2 s
  if e.2.places = 0 then s1 else freeTaken (e.2.places - 1) (enterPlaced n s1)

/-- Whether a slot's terminal notice is due (R84). -/
def terminalDue (s : State) (n : Nat) : Bool := s.su.due.any fun d => d.terminal && d.slot == some n

/-- A slot ended by the store fault: FAULT with the slot's amount, unless its terminal notice has fallen due (R85). -/
def faultSlot (s : State) (n : Nat) : State :=
  match slotAt s n with
  | some sl =>
    if terminalDue s n then s else endSlot n sl { slotNotice sl .fault with amountA := sl.amount } s
  | none => s

/-- GRANTED notices of slots that have not entered are dropped (R85). -/
def dropGranted (s : State) : State :=
  { s with su := { s.su with due := s.su.due.filter fun d => !(d.slot.isSome && decide (d.notice.outcome = .granted)) } }

/-- The notices that fell due before the fault enter the places that free at it, before the FAULT notices of slots fall due
(R85, R178). -/
def enterWaiting (s : State) : State := enterDues (freePlaces s) s

/-- The Slot Unit at the store fault (R85). -/
def faultSlots (s : State) : State :=
  let s1 := enterWaiting (dropGranted s)
  withdraw .c2 ((s1.su.slots.map (·.1)).foldl faultSlot s1)

/-- The Deferred Queue at the store fault (R103). -/
def faultDq (s : State) : State :=
  withdraw .c3 { s with dq := { s.dq with reply := none, pending := none } }

/-- The Tally Unit at the store fault: the round stops where it stands, and reserved class-1 places are freed (R155). -/
def faultTu (s : State) : State :=
  { s with
    tu := { s.tu with
      quiet := none, tally := none, opening := none, cutShort := false, heldOpen := none, sendList := [], inbound := []
      computing := none, result := none }
    lc := { s.lc with tx1 := { s.lc.tx1 with reserved := 0 } } }

/-- The Till Port at the store fault: HALTED-STORE, STORE set, a PENDING command refused STORE-FAULT, with tag 0 (R129,
R130; CONFIRM and CANCEL: log 35). -/
def faultTp (s : State) : State :=
  let s1 := setEvent .store { s with tp := { s.tp with station := .halted } }
  if s1.tp.hand.isSome then refuse .storeFault s1 else s1

/-- The abandoned write's record is torn; the queue and the waiting order are empty (R128, R129, R130). -/
def tearWrite (s : State) : State :=
  { s with ps := { s.ps with store := { s.ps.store with torn := true }, queue := [], timer := 0, waiting := [] } }

/-- The store fault (R62, R85, R103, R129, R130, R155). -/
def storeFaulted (s : State) : State :=
  let ds := s.ps.queue.flatMap (·.deps)
  let s1 := ds.foldl faultDependent (tearWrite s)
  let s2 := (localHolds s1).foldl faultHold s1
  faultTp (faultTu (faultDq (faultSlots s2)))

/-- STORE_FAULT: the write under way has not completed 40 ms after it began (R129). In step 1 of a start-up it is torn, no
event is set, and the start-up goes on (R132). -/
def execStoreFault (s : State) : Host.Outcome State Fault Refusal :=
  match s.ps.queue with
  | _ :: _ =>
    if isRunning s = true ∧ s.ps.timer = 0 then
      if s.tp.startup = .finishing then .next (startUpSteps .command (tearWrite s)) else .next (storeFaulted s)
    else .next s
  | [] => .next s

end Sys2Proof.Machine
end

