-- ==== Sys2Proof/Machine/Till.lean ====
section
/-! DEFINITION. The till commands: intake (R10, R168), station-state test (R169), routing (R170, R67), configuration, joining,
RESET, STATUS and reads, notices and events (R171 to R182). -/
namespace Sys2Proof.Machine

/-! ### Intake (R10, R12, R168) -/

/-- A command taken: command state BUSY, and the response record takes its sequence number and code, PENDING (R12, R168). -/
def takeCommand (code seq : Byte) (s : State) : State :=
  { s with tp := { s.tp with
      intake := .taken, busy := true, hand := none, response := ⟨seq, code, .pending, .none, 0, []⟩ } }

/-- Whether a command write other than RESET is refused BUSY (R10, R132, R168). -/
def refusesBusy (s : State) : Bool := s.tp.busy || decide (s.tp.startup ≠ .none)

/-- A command write: nothing while the part does not run; BUSY changes the intake result alone; a command taken goes on as its
rule says (R10, R168). -/
def intake (code seq : Byte) (work : State → State) (s : State) : Host.Outcome State Fault Refusal :=
  if isRunning s = false then .next s
  else if refusesBusy s = true then .next { s with tp := { s.tp with intake := .busy } }
  else .next (settleWaiting (work (takeCommand code seq s)))

/-! ### The station-state test (R169) -/

/-- The refusal of a card or settlement command by the station state: admitted in JOINED alone (R169). -/
def tradeTest (s : State) : Option Reason :=
  match s.tp.station with
  | .joined => none
  | .halted => some .storeFault
  | _ => some .notJoined

/-- The refusal of CONFIGURE by the station state (R169). -/
def configureTest (s : State) : Option Reason :=
  match s.tp.station with
  | .unconfigured | .configured => none
  | .joined => some .state
  | .halted => some .storeFault

/-- The refusal of JOIN by the station state (R169). -/
def joinTest (s : State) : Option Reason :=
  match s.tp.station with
  | .configured => none
  | .halted => some .storeFault
  | _ => some .state

/-- A command refused by its station-state test, or handled (R169). -/
def tested (test : State → Option Reason) (work : State → State) (s : State) : State :=
  match test s with
  | some r => refuse r s
  | none => work s

/-! ### Configuration, joining, reset -/

/-- CONFIGURE (R137, R169, R171, R172). -/
def execConfigure (seq : Byte) (p : ConfigParams) (s : State) : Host.Outcome State Fault Refusal :=
  intake 0x01 seq (tested configureTest (takeConfigure p)) s

/-- A round rebuilt at start-up resumes at JOIN: QUIET with the quiet timer at Q, TALLYING with its sending (R156, R173). -/
def resumeRound (s : State) : State :=
  match s.tu.state with
  | .quiet => { s with tu := { s.tu with quiet := some (quietTime s) } }
  | .tallying => startSending s
  | _ => s

/-- JOIN accepted: JOINED, the line ACTIVE with its stuck timer set and the receiver searching, a rebuilt round resumed (R105,
R156, R173). -/
def joined (s : State) : State :=
  resumeRound (accept 0 []
    { s with
      tp := { s.tp with station := .joined }
      lc := { s.lc with line := .active, stuck := Config.stuckTime, receiver := .searching } })

/-- JOIN (R169, R173). -/
def execJoin (seq : Byte) (s : State) : Host.Outcome State Fault Refusal := intake 0x02 seq (tested joinTest joined) s

/-- RESET: taken in every command state and station state while the part runs; start-up begins with cause COMMAND (R174). It
has no response, so its sequence number is not kept (R12). -/
def execReset (_seq : Byte) (s : State) : Host.Outcome State Fault Refusal :=
  if isRunning s then .next (beginReset s) else .next s

/-- STATUS (R176). -/
def execStatus (seq : Byte) (s : State) : Host.Outcome State Fault Refusal :=
  intake 0x04 seq (fun t => accept 0 (statusBytes t) t) s

/-- A command write whose code is unknown or whose length is not its own: the intake result alone changes (R10, R12). -/
def execMalformed (_code _seq : Byte) (_params : List Byte) (s : State) : Host.Outcome State Fault Refusal :=
  if isRunning s then .next { s with tp := { s.tp with intake := .malformed } } else .next s

/-! ### Routing (R67, R170) -/

/-- CLOSE, FREEZE and UNFREEZE go to the CTU, but for a card whose home is not a member (R170). -/
def routeHomeOp (card : CardNo) (op : HomeOp) (s : State) : State :=
  if isMember s (cardHome card) then handTo (.homeOp op) s else refuse .noHome s

/-- Whether an amount lies in 1 to this station's balance ceiling (R67). -/
def amountFits (s : State) (amount : Nat) : Bool := decide (1 ≤ amount ∧ amount ≤ s.tp.config.ceiling)

/-- A command on a foreign card: the amount test, then a RETURN naming a deferred entry's tag goes to the Deferred Queue, and
any other command to the Slot Unit (R67). -/
def routeForeign (r : OpenReq) (s : State) : State :=
  if r.kind ≠ .inquire ∧ amountFits s r.amount = false then refuse .amount s
  else if r.kind = .ret ∧ (entryTagged s r.origTag).isSome = true then handTo (.dqReturn r.card r.origTag r.amount) s
  else handTo (.opening r) s

/-- LOAD, REDEEM, RETURN and INQUIRE are routed by the home station of their card (R170). -/
def routeCard (own : LocalReq) (r : OpenReq) (s : State) : State :=
  if cardHome r.card = ownStation s then handTo (.localReq own) s
  else if !isMember s (cardHome r.card) then refuse .noHome s
  else routeForeign r s

/-- CONFIRM goes to the CTU for a live local hold, after its amount test, else to the Slot Unit (R74, R170; the tag of an
AMOUNT refusal: log 35). -/
def routeConfirm (tag : Tag) (amount : Nat) (s : State) : State :=
  match localHold s tag with
  | some (_, h) =>
    if amount < 1 ∨ h.grant < amount then refuseNamed .amount tag s else handTo (.localReq (.confirm tag amount)) s
  | none => confirmSlot tag amount s

/-- CANCEL goes to the CTU for a live local hold, else to the Slot Unit (R75, R170). -/
def routeCancel (tag : Tag) (s : State) : State :=
  match localHold s tag with
  | some _ => handTo (.localReq (.cancel tag)) s
  | none => cancelSlot tag s

/-- SELL (R24, R170). -/
def execSell (seq : Byte) (amount : Amount) (expiry : Option Day) (s : State) : Host.Outcome State Fault Refusal :=
  intake 0x10 seq (tested tradeTest (handTo (.homeOp (.sell amount.toNat expiry)))) s

/-- CLOSE (R24, R170). -/
def execClose (seq : Byte) (card : CardNo) (s : State) : Host.Outcome State Fault Refusal :=
  intake 0x11 seq (tested tradeTest (routeHomeOp card (.close card))) s

/-- FREEZE (R24, R170). -/
def execFreeze (seq : Byte) (card : CardNo) (s : State) : Host.Outcome State Fault Refusal :=
  intake 0x12 seq (tested tradeTest (routeHomeOp card (.freeze card))) s

/-- UNFREEZE (R24, R170). -/
def execUnfreeze (seq : Byte) (card : CardNo) (s : State) : Host.Outcome State Fault Refusal :=
  intake 0x13 seq (tested tradeTest (routeHomeOp card (.unfreeze card))) s

/-- LOAD (R58, R67, R170). -/
def execLoad (seq : Byte) (card : CardNo) (check : Check) (amount : Amount) (s : State) :
    Host.Outcome State Fault Refusal :=
  intake 0x20 seq (tested tradeTest (routeCard (.load card check amount.toNat)
    ⟨.load, card, check, amount.toNat, false, false, 0, none⟩)) s

/-- REDEEM (R58, R67, R170). The local path has no offline decision, so the offline flag is not used there (R59). -/
def execRedeem (seq : Byte) (card : CardNo) (check : Check) (amount : Amount) (split offline : Bool) (s : State) :
    Host.Outcome State Fault Refusal :=
  intake 0x21 seq (tested tradeTest (routeCard (.redeem card check amount.toNat split)
    ⟨.redeem, card, check, amount.toNat, split, offline, 0, none⟩)) s

/-- CONFIRM (R59, R74, R170). -/
def execConfirm (seq : Byte) (tag : Tag) (amount : Amount) (s : State) : Host.Outcome State Fault Refusal :=
  intake 0x22 seq (tested tradeTest (routeConfirm tag amount.toNat)) s

/-- CANCEL (R59, R75, R170). -/
def execCancel (seq : Byte) (tag : Tag) (s : State) : Host.Outcome State Fault Refusal :=
  intake 0x23 seq (tested tradeTest (routeCancel tag)) s

/-- RETURN (R58, R67, R100, R170). -/
def execReturn (seq : Byte) (card : CardNo) (origTag : Tag) (amount : Amount) (s : State) :
    Host.Outcome State Fault Refusal :=
  intake 0x24 seq (tested tradeTest (routeCard (.ret card origTag amount.toNat)
    ⟨.ret, card, 0, amount.toNat, false, false, origTag, none⟩)) s

/-- INQUIRE (R58, R67, R170). -/
def execInquire (seq : Byte) (card : CardNo) (check : Check) (asked : Option Tag) (s : State) :
    Host.Outcome State Fault Refusal :=
  intake 0x25 seq (tested tradeTest (routeCard (.inquire card check asked)
    ⟨.inquire, card, check, 0, false, false, 0, asked⟩)) s

/-- SETTLE (R142, R170). -/
def execSettle (seq : Byte) (day : Day) (s : State) : Host.Outcome State Fault Refusal :=
  intake 0x30 seq (tested tradeTest (takeSettle day)) s

/-- RECOUNT (R153, R170). -/
def execRecount (seq : Byte) (s : State) : Host.Outcome State Fault Refusal :=
  intake 0x31 seq (tested tradeTest takeRecount) s

/-! ### Reads (R177) -/

/-- READ-CARD: a serial above 8,191 is refused INDEX (R12, R32). -/
def execReadCard (seq : Byte) (serial : BitVec 16) (s : State) : Host.Outcome State Fault Refusal :=
  intake 0x40 seq (fun t =>
    if serial.toNat < Config.serials then accept 0 (cardBytes t serial.toNat) t else refuse .index t) s

/-- READ-CAPLOG: a position above 1,023 is refused INDEX (R12, R50). -/
def execReadCaplog (seq : Byte) (position : BitVec 16) (s : State) : Host.Outcome State Fault Refusal :=
  intake 0x41 seq (fun t =>
    if position.toNat < Config.captures then accept 0 (capBytes t.ctu.capLog position.toNat) t else refuse .index t) s

/-- READ-DEFERRED: a position above 63 is refused INDEX (R12, R102). -/
def execReadDeferred (seq : Byte) (position : Byte) (s : State) : Host.Outcome State Fault Refusal :=
  intake 0x42 seq (fun t =>
    if position.toNat < Config.deferred then accept 0 (deferredBytes t.dq.area.entries position.toNat) t
    else refuse .index t) s

/-- READ-PAYOUT: index 0 the summary, 1 to 62 a peer entry, above 62 refused INDEX (R12, R167). -/
def execReadPayout (seq : Byte) (index : Byte) (s : State) : Host.Outcome State Fault Refusal :=
  intake 0x43 seq (fun t =>
    if 62 < index.toNat then refuse .index t
    else if index = 0 then accept 0 (payoutSummary t.tu.payout) t
    else accept 0 (payoutBytes t (index.setWidth 6)) t) s

/-! ### Notices and events (R179 to R182) -/

/-- TAKE-NOTICE's work: the oldest notice leaves its place, and the oldest waiting notice enters the freed place after the
response is formed; with no notice entered EMPTY is returned (R179). -/
def takeNotice (s : State) : State :=
  match s.tp.notices with
  | n :: rest =>
    let s1 := accept 0 (noticeBytes n) { s with tp := { s.tp with notices := rest } }
    enterDues (min 1 (freePlaces s1)) s1
  | [] => accept 0 (noticeBytes emptyNotice) s

/-- TAKE-NOTICE (R179). -/
def execTakeNotice (seq : Byte) (s : State) : Host.Outcome State Fault Refusal := intake 0x50 seq takeNotice s

/-- READ-EVENTS (R180). -/
def execReadEvents (seq : Byte) (s : State) : Host.Outcome State Fault Refusal :=
  intake 0x51 seq (fun t => accept 0 (eventBytes t) t) s

/-- CLEAR-EVENTS' work (R180, R181). -/
def clearEvents (events : Byte) (s : State) : State :=
  accept 0 [] { s with tp := { s.tp with events := keepNotice s (s.tp.events &&& ~~~events) } }

/-- CLEAR-EVENTS (R181). -/
def execClearEvents (seq : Byte) (events : Byte) (s : State) : Host.Outcome State Fault Refusal :=
  intake 0x52 seq (clearEvents events) s

/-- SET-MASK's work (R180, R182). -/
def setMask (mask : Byte) (allMask : Bool) (s : State) : State :=
  accept 0 [] { s with tp := { s.tp with
    mask := mask, allMask := allMask, events := keepNotice s (s.tp.events &&& mask) } }

/-- SET-MASK (R182). -/
def execSetMask (seq : Byte) (mask : Byte) (allMask : Bool) (s : State) : Host.Outcome State Fault Refusal :=
  intake 0x53 seq (setMask mask allMask) s

end Sys2Proof.Machine
end

