-- ==== Sys2Proof/Machine/Dispatch.lean ====
section
/-! DEFINITION. One arm for each command of the table: a direct call of its meaning. -/
namespace Sys2Proof.Machine

/-- What a command does to everything but the queue. -/
def exec (i : Instr) (s : State) : Host.Outcome State Fault Refusal :=
  match i with
  | .configure seq p => Sys2Proof.Machine.execConfigure seq p s
  | .join seq => Sys2Proof.Machine.execJoin seq s
  | .reset seq => Sys2Proof.Machine.execReset seq s
  | .status seq => Sys2Proof.Machine.execStatus seq s
  | .malformed code seq params => Sys2Proof.Machine.execMalformed code seq params s
  | .sell seq amount expiry => Sys2Proof.Machine.execSell seq amount expiry s
  | .close seq card => Sys2Proof.Machine.execClose seq card s
  | .freeze seq card => Sys2Proof.Machine.execFreeze seq card s
  | .unfreeze seq card => Sys2Proof.Machine.execUnfreeze seq card s
  | .load seq card check amount => Sys2Proof.Machine.execLoad seq card check amount s
  | .redeem seq card check amount split offline => Sys2Proof.Machine.execRedeem seq card check amount split offline s
  | .confirm seq tag amount => Sys2Proof.Machine.execConfirm seq tag amount s
  | .cancel seq tag => Sys2Proof.Machine.execCancel seq tag s
  | .returnCard seq card origTag amount => Sys2Proof.Machine.execReturn seq card origTag amount s
  | .inquire seq card check asked => Sys2Proof.Machine.execInquire seq card check asked s
  | .settle seq day => Sys2Proof.Machine.execSettle seq day s
  | .recount seq => Sys2Proof.Machine.execRecount seq s
  | .readCard seq serial => Sys2Proof.Machine.execReadCard seq serial s
  | .readCaplog seq position => Sys2Proof.Machine.execReadCaplog seq position s
  | .readDeferred seq position => Sys2Proof.Machine.execReadDeferred seq position s
  | .readPayout seq index => Sys2Proof.Machine.execReadPayout seq index s
  | .takeNotice seq => Sys2Proof.Machine.execTakeNotice seq s
  | .readEvents seq => Sys2Proof.Machine.execReadEvents seq s
  | .clearEvents seq events => Sys2Proof.Machine.execClearEvents seq events s
  | .setMask seq mask allMask => Sys2Proof.Machine.execSetMask seq mask allMask s
  | .powerUp => Sys2Proof.Machine.execPowerUp s
  | .powerFailure => Sys2Proof.Machine.execPowerFailure s
  | .resetInputAssert => Sys2Proof.Machine.execResetInputAssert s
  | .resetInputRelease => Sys2Proof.Machine.execResetInputRelease s
  | .reload => Sys2Proof.Machine.execReload s
  | .homeOperationTake => Sys2Proof.Machine.execHomeOperationTake s
  | .localRequestTake => Sys2Proof.Machine.execLocalRequestTake s
  | .hold => Sys2Proof.Machine.execHold s
  | .claim => Sys2Proof.Machine.execClaim s
  | .drop => Sys2Proof.Machine.execDrop s
  | .post => Sys2Proof.Machine.execPost s
  | .loadFrame => Sys2Proof.Machine.execLoadFrame s
  | .returnFrame => Sys2Proof.Machine.execReturnFrame s
  | .inquireFrame => Sys2Proof.Machine.execInquireFrame s
  | .slotOpening => Sys2Proof.Machine.execSlotOpening s
  | .dqReturnTake => Sys2Proof.Machine.execDqReturnTake s
  | .receiveQueueEntry frame => Sys2Proof.Machine.execReceiveQueueEntry frame s
  | .bodyLengthDiscard => Sys2Proof.Machine.execBodyLengthDiscard s
  | .stall src dst tag => Sys2Proof.Machine.execStall src dst tag s
  | .holdOk src dst tag holdId grant available isPartial => Sys2Proof.Machine.execHoldOk src dst tag holdId grant available isPartial s
  | .holdNo src dst tag reason available => Sys2Proof.Machine.execHoldNo src dst tag reason available s
  | .claimOk src dst tag amount day duplicate => Sys2Proof.Machine.execClaimOk src dst tag amount day duplicate s
  | .claimNo src dst tag reason => Sys2Proof.Machine.execClaimNo src dst tag reason s
  | .postOk src dst tag taken shortfall reason day duplicate => Sys2Proof.Machine.execPostOk src dst tag taken shortfall reason day duplicate s
  | .postNo src dst tag reason => Sys2Proof.Machine.execPostNo src dst tag reason s
  | .loadOk src dst tag balance day duplicate => Sys2Proof.Machine.execLoadOk src dst tag balance day duplicate s
  | .loadNo src dst tag reason => Sys2Proof.Machine.execLoadNo src dst tag reason s
  | .returnOk src dst tag balance day => Sys2Proof.Machine.execReturnOk src dst tag balance day s
  | .returnNo src dst tag reason => Sys2Proof.Machine.execReturnNo src dst tag reason s
  | .balance src dst tag state balance available result => Sys2Proof.Machine.execBalance src dst tag state balance available result s
  | .inquireNo src dst tag reason => Sys2Proof.Machine.execInquireNo src dst tag reason s
  | .tallyOpen src dst day => Sys2Proof.Machine.execTallyOpen src dst day s
  | .tally src dst day block => Sys2Proof.Machine.execTally src dst day block s
  | .frameStart => Sys2Proof.Machine.execFrameStart s
  | .arbitrationLost => Sys2Proof.Machine.execArbitrationLost s
  | .bodyClash => Sys2Proof.Machine.execBodyClash s
  | .frameSentWhole => Sys2Proof.Machine.execFrameSentWhole s
  | .idleGap => Sys2Proof.Machine.execIdleGap s
  | .stuckTimerExpiry => Sys2Proof.Machine.execStuckTimerExpiry s
  | .holdExpiry entry => Sys2Proof.Machine.execHoldExpiry entry s
  | .replyWindowExpiry slot => Sys2Proof.Machine.execReplyWindowExpiry slot s
  | .slotHoldExpiry slot => Sys2Proof.Machine.execSlotHoldExpiry slot s
  | .dqWindowExpiry => Sys2Proof.Machine.execDqWindowExpiry s
  | .backoffExpiry home => Sys2Proof.Machine.execBackoffExpiry home s
  | .quietTimerExpiry => Sys2Proof.Machine.execQuietTimerExpiry s
  | .tallyTimerExpiry => Sys2Proof.Machine.execTallyTimerExpiry s
  | .storeFault => Sys2Proof.Machine.execStoreFault s
  | .writeCompletion => Sys2Proof.Machine.execWriteCompletion s
  | .computationCompletion => Sys2Proof.Machine.execComputationCompletion s
  | .offlineDecision slot => Sys2Proof.Machine.execOfflineDecision slot s
  | .slotDeferredEntry slot => Sys2Proof.Machine.execSlotDeferredEntry slot s
  | .actorFiling slot => Sys2Proof.Machine.execActorFiling slot s
  | .noticeEntry => Sys2Proof.Machine.execNoticeEntry s
  | .forwarderChoice => Sys2Proof.Machine.execForwarderChoice s
  | .dqPendingStep => Sys2Proof.Machine.execDqPendingStep s
  | .roundOpening => Sys2Proof.Machine.execRoundOpening s
  | .tallyOpenEntry => Sys2Proof.Machine.execTallyOpenEntry s
  | .tallyStep => Sys2Proof.Machine.execTallyStep s
  | .receptionStep => Sys2Proof.Machine.execReceptionStep s
  | .cutShortStep => Sys2Proof.Machine.execCutShortStep s
  | .payoutRecord => Sys2Proof.Machine.execPayoutRecord s
  | .startSymbol => Sys2Proof.Machine.execStartSymbol s

end Sys2Proof.Machine
end

