-- ==== Sys2Proof/Machine/Idle.lean ====
section
/-! DEFINITION. What the block does while no command waits: one of its own due events, or one period of the reference clock
(R126, R184; log 2). -/
namespace Sys2Proof.Machine

/-! ### The tick (R184) -/

/-- A running timer falls by one. -/
def fall (t : Option Nat) : Option Nat := t.map (· - 1)

/-- The hold lifetimes fall (R43, R184). -/
def tickHolds (t : Table HoldEntry) : Table HoldEntry :=
  t.map fun e => (e.1, { e.2 with live := e.2.live.map fun h => { h with life := h.life - 1 } })

/-- The slots' reply and hold timers fall (R69, R75, R184). -/
def tickSlots (t : Table Slot) : Table Slot :=
  t.map fun e => (e.1, { e.2 with reply := fall e.2.reply, holdTimer := fall e.2.holdTimer })

/-- The back-off times fall (R91, R184). -/
def tickBackoff (t : Table BackoffLine) : Table BackoffLine := t.map fun e => (e.1, { e.2 with time := fall e.2.time })

/-- The stuck timer falls in ACTIVE; on an idle line it stands at its setting (R106, R107; log 11). -/
def tickStuck (l : Lc) : Nat := if l.line = .active ∧ l.receiver ≠ .idle then l.stuck - 1 else l.stuck

/-- One 1 ms tick: every running timer falls by one (R184). -/
def tick (s : State) : State :=
  { s with
    ctu := { s.ctu with holds := tickHolds s.ctu.holds }
    su := { s.su with slots := tickSlots s.su.slots }
    dq := { s.dq with backoff := tickBackoff s.dq.backoff, reply := fall s.dq.reply }
    lc := { s.lc with stuck := tickStuck s.lc }
    ps := { s.ps with timer := s.ps.timer - 1 }
    tu := { s.tu with quiet := fall s.tu.quiet, tally := fall s.tu.tally } }

/-- One reference-clock period: a tick when the period count reaches the divisor in force (R184). -/
def clock (s : State) : State :=
  if s.tp.refCount + 1 < s.tp.divisor then { s with tp := { s.tp with refCount := s.tp.refCount + 1 } }
  else tick { s with tp := { s.tp with refCount := 0 } }

/-! ### The block's own events -/

/-- A list of one, when a test holds. -/
def one (b : Bool) (c : Instr) : List Instr := if b then [c] else []

/-- The start-up's reload and the store fault (R129, R132). -/
def dueStore (s : State) : List Instr :=
  one (decide (s.tp.startup = .reloading)) .reload ++
    one (!s.ps.queue.isEmpty && decide (s.ps.timer = 0)) .storeFault

/-- The expiries of live holds (R43). -/
def dueHolds (s : State) : List Instr :=
  (liveHolds s).flatMap fun e => if h : e.1 < 256 then one (decide (e.2.life = 0)) (.holdExpiry ⟨e.1, h⟩) else []

/-- The expiries and pending steps of one slot (R69, R75, R81). -/
def dueSlot (s : State) (e : Nat × Slot) : List Instr :=
  if h : e.1 < 32 then
    one (isJoined s && decide (e.2.reply = some 0)) (.replyWindowExpiry ⟨e.1, h⟩) ++
    one (isJoined s && decide (e.2.state = .held) && decide (e.2.holdTimer = some 0)) (.slotHoldExpiry ⟨e.1, h⟩) ++
    (if isGranted s (.slot e.1) then
      match e.2.pending with
      | some .offline => [.offlineDecision ⟨e.1, h⟩]
      | some .deferLate | some .deferRetry => [.slotDeferredEntry ⟨e.1, h⟩]
      | some (.file ..) => [.actorFiling ⟨e.1, h⟩]
      | none => []
    else [])
  else []

/-- The Card Table Unit's takes (R37). -/
def dueCtu (s : State) : List Instr :=
  (if takesLine s then
    match s.lc.rx with
    | ⟨_, .hold ..⟩ :: _ => [.hold]
    | ⟨_, .claim ..⟩ :: _ => [.claim]
    | ⟨_, .drop ..⟩ :: _ => [.drop]
    | ⟨_, .post ..⟩ :: _ => [.post]
    | ⟨_, .load ..⟩ :: _ => [.loadFrame]
    | ⟨_, .ret ..⟩ :: _ => [.returnFrame]
    | ⟨_, .inquire ..⟩ :: _ => [.inquireFrame]
    | _ => []
  else []) ++
  (if takesLocal s then
    match s.tp.hand with
    | some (.homeOp _) => [.homeOperationTake]
    | some (.localReq _) => [.localRequestTake]
    | _ => []
  else [])

/-- The waiting step that is made in the write-queue place held for it (R126). -/
def dueGranted (s : State) : List Instr :=
  match granted s with
  | some .opening => [.slotOpening]
  | some .dqReturn => [.dqReturnTake]
  | some .dqPending => [.dqPendingStep]
  | some .forwarder => [.forwarderChoice]
  | some .roundOpening => [.roundOpening]
  | some .cutShort => [.cutShortStep]
  | some .tally => [.tallyStep]
  | some (.reception _) => [.receptionStep]
  | some .payout => [.payoutRecord]
  | _ => []

/-- The Deferred Queue's timers (R91, R94). -/
def dueDq (s : State) : List Instr :=
  one (isJoined s && (sentEntry s).isSome && s.dq.pending.isNone && decide (s.dq.reply = some 0)) .dqWindowExpiry ++
    s.dq.backoff.flatMap fun e => one (decide (e.2.time = some 0)) (.backoffExpiry (BitVec.ofNat 6 e.1))

/-- The Tally Unit's timers and the steps that need no write-queue place (R143 to R145, R148). -/
def dueTu (s : State) : List Instr :=
  one (isJoined s && decide (s.tu.state = .quiet) && decide (s.tu.quiet = some 0)) .quietTimerExpiry ++
    one (isJoined s && decide (s.tu.state = .tallying) && decide (s.tu.tally = some 0)) .tallyTimerExpiry ++
    one (isJoined s && (match s.tu.heldOpen with | some h => h.ready | none => false) && decide (1 ≤ txFree s .c1))
      .tallyOpenEntry ++
    one (tallyReady s && !tallyNeedsRecord s) .tallyStep

/-- The Line Controller's own events and the entry of a waiting notice (R107, R110, R178). -/
def dueLine (s : State) : List Instr :=
  one (lineOn s && decide (s.lc.line = .active) && decide (s.lc.stuck = 0)) .stuckTimerExpiry ++
    one (readyToStart s && (headClass s).isSome) .frameStart ++
    one (!s.su.due.isEmpty && decide (1 ≤ freePlaces s)) .noticeEntry

/-- The block's own events that are due: what it can do without anything from outside. -/
def due (s : State) : List Instr :=
  if isRunning s then
    dueStore s ++
      (if isOpen s then
        dueHolds s ++ s.su.slots.flatMap (dueSlot s) ++ dueCtu s ++ dueGranted s ++ dueDq s ++ dueTu s ++ dueLine s
      else [])
  else []

/-- One step with no command waiting: one of the due events, the choice among several a free value; with none, one period of
the reference clock; nothing while the part does not run (R126, R184; log 2). -/
def idle (s : State) : Host.Outcome State Fault Refusal :=
  match due s with
  | [] => if isRunning s then .next (clock s) else .next s
  | [c] => exec c s
  | c :: cs =>
    exec (((c :: cs)[Config.eventChoice s.choices (cs.length + 1) % (cs.length + 1)]?).getD c)
      { s with choices := s.choices + 1 }

end Sys2Proof.Machine
end

