-- ==== Sys2Proof/Safety.lean ====
section
/-! DEFINITION. What the statements speak of: the laws the GS24 keeps between its events, and the frames of its commands. -/
namespace Sys2Proof.Safety
open Sys2Proof.Machine

/-! ### Laws of the state -/

/-- An area update that carries a whole table carries it in canonical form. -/
def updateCanonical : AreaUpdate → Bool
  | .pairClosingAll t m _ => Table.wf blankLine t && Table.wf .none m
  | _ => true

/-- The store's tables are in canonical form. -/
def storeCanonical (st : Store) : Bool :=
  Table.wf blankStoredCard st.cards && Table.wf blankLine st.live && Table.wf blankLine st.closing &&
    Table.wf 0 st.marks && Table.rises st.figures

/-- Every sparse table of the part is in canonical form: indices rising, no entry equal to what an unlisted index reads as. -/
def tablesCanonical (s : State) : Prop :=
  Table.wf blankCard s.ctu.cards = true ∧ Table.wf 0 s.ctu.held = true ∧ Table.wf blankHold s.ctu.holds = true ∧
    Table.rises s.su.slots = true ∧ Table.wf blankBackoff s.dq.backoff = true ∧ Table.wf blankLine s.tu.live = true ∧
    Table.wf blankLine s.tu.closing = true ∧ Table.wf PairMark.none s.tu.marks = true ∧
    Table.rises s.tu.figures = true ∧ storeCanonical s.ps.store = true ∧
    (s.ps.queue.all fun r => r.updates.all updateCanonical) = true

/-- The liability law (R23): the liability total is the sum of the balances of the card table. -/
def liabilityLaw (s : State) : Prop :=
  Table.rises s.ctu.cards = true ∧ Table.rises s.ps.store.cards = true ∧ s.ctu.liability = totalBalance s.ctu.cards

/-- The grants of the live holds on a serial, summed. -/
def grantsOn (s : State) (serial : Nat) : Nat :=
  (((liveHolds s).filter fun e => e.2.serial == serial).map fun e => e.2.grant).sum

/-- The held law (R42): a card's held total is the sum of the grants of the live entries naming its serial. -/
def heldLaw (s : State) : Prop :=
  Table.rises s.ctu.holds = true ∧ Table.rises s.ctu.held = true ∧ ∀ k, heldOf s k = grantsOn s k

/-- The card law (R16, R34): the held law; no held total above its balance; no balance on a serial that is not issued. -/
def cardLaw (s : State) : Prop :=
  heldLaw s ∧ Table.rises s.ctu.cards = true ∧ Table.rises s.ps.store.cards = true ∧
    ∀ k, heldOf s k ≤ (cardOf s k).balance ∧ (isIssued (cardOf s k) = false → (cardOf s k).balance = 0)

/-- The records of the write queue and the places held in it for waiting steps are at most 8, and each record has one to four
area updates (R124 to R126). -/
def writeQueueLaw (s : State) : Prop :=
  s.ps.queue.length + heldPlaces s.ps.waiting ≤ 8 ∧ ∀ r ∈ s.ps.queue, 1 ≤ r.updates.length ∧ r.updates.length ≤ 4

/-- NOTICE is pending whenever the completion queue holds a notice (R180). -/
def noticeLaw (s : State) : Prop := s.tp.notices = [] ∨ isPending s .notice = true

/-- Whether a dependent is a notice with a taken place. -/
def isPlaced : Dependent → Bool
  | .placed .. => true
  | _ => false

/-- The taken places that are kept for a notice: one for each notice attached to a record, and one for each local hold, whose
end puts its notice there (R59, R178). -/
def keptPlaces (s : State) : Nat := ((s.ps.queue.flatMap (·.deps)).countP isPlaced) + (localHolds s).length

/-- The place law (R178): the notices in the completion queue and the taken places are at most 16, and each notice with a taken
place has its place. -/
def placeLaw (s : State) : Prop :=
  Table.rises s.ctu.holds = true ∧ s.tp.notices.length + s.tp.taken ≤ 16 ∧ keptPlaces s ≤ s.tp.taken

/-- The command law (R168): outside a start-up the command state is BUSY exactly while a command is in hand, and the response
shows PENDING exactly then. -/
def commandLaw (s : State) : Prop :=
  (isUp s = true → s.tp.busy = s.tp.hand.isSome ∧ (s.tp.response.result = .pending ↔ s.tp.busy = true)) ∧
    (s.tp.startup = .reloading → s.tp.response.result ≠ .pending)

/-- The slot law (R66): slot numbers below 32, each at most once; a slot in HELD has its hold id and grant, and its hold timer
runs. -/
def slotLaw (s : State) : Prop :=
  Table.rises s.su.slots = true ∧
    ∀ e ∈ s.su.slots, e.1 < 32 ∧ (e.2.state = .held → e.2.hold.isSome = true ∧ e.2.holdTimer.isSome = true)

/-- A DEFERRED area as R87 to R89 have it: at most 64 entries, tags distinct, at most one SENT, the exposure the sum of the
OFFLINE entries, a CLAIM-RETRY without origin. -/
def areaLaw (a : DeferredArea) : Prop :=
  a.entries.length ≤ 64 ∧ (a.entries.map (·.tag)).Nodup ∧ (a.entries.filter (·.sent)).length ≤ 1 ∧
    a.exposure = offlineSum a.entries ∧ ∀ e ∈ a.entries, e.kind = .claimRetry → e.origin = .none

/-- The tag and entry law (R65, R66, R87 to R89, R95): the tags of slots in use are distinct; the DEFERRED area is lawful in
memory, in the store and in every record; a slot whose tag an entry carries has ended and makes no entry again; a pending step
is about a SENT entry, and a conversion about a CLAIM-RETRY. -/
def entryLaw (s : State) : Prop :=
  (s.su.slots.map (·.2.tag)).Nodup ∧ Table.rises s.ctu.holds = true ∧ (∀ e ∈ s.ctu.holds, e.1 < 256) ∧
    areaLaw s.dq.area ∧ areaLaw s.ps.store.deferred ∧
    (∀ r ∈ s.ps.queue, ∀ a, AreaUpdate.deferred a ∈ r.updates → areaLaw a) ∧
    (∀ x ∈ s.su.slots, (∃ e ∈ s.dq.area.entries, e.tag = x.2.tag) →
      x.2.state = .notifying ∧ (x.2.pending = none ∨ ∃ p m d n, x.2.pending = some (.file p m d n))) ∧
    (s.dq.pending ≠ none → ∃ e ∈ s.dq.area.entries, e.sent = true) ∧
    (s.dq.pending = some .convert → ∀ e ∈ s.dq.area.entries, e.sent = true → e.kind = .claimRetry)

/-- The step's outcome: whatever it answers is a next state with this property. -/
def nextSatisfies (o : Host.Outcome State Fault Refusal) (P : State → Prop) : Prop := ∃ t, o = .next t ∧ P t

/-! ### Kinds of commands -/

/-- The card and settlement commands of the till, which the station state admits in JOINED alone (R169). -/
def tradeCommand : Instr → Bool
  | .sell .. | .close .. | .freeze .. | .unfreeze .. | .load .. | .redeem .. | .confirm .. | .cancel .. | .returnCard ..
  | .inquire .. | .settle .. | .recount .. => true
  | _ => false

/-- The commands that stop or restart the part: RESET and the events of supply and reset pin (R132, R138, R174, R175). -/
def restarts : Instr → Bool
  | .reset .. | .powerUp | .powerFailure | .resetInputAssert | .resetInputRelease => true
  | _ => false

/-- The command state is IDLE and no start-up is under way, so a command write is taken (R10, R168). -/
def idlePort (s : State) : Prop := isUp s = true ∧ s.tp.busy = false

/-! ### Frames and results -/

/-- Nothing but the Till Port, and the order of waiting steps, is changed. -/
def onlyPort (s t : State) : Prop := t = { s with tp := t.tp, ps := { s.ps with waiting := t.ps.waiting } }

/-- The Till Port after a command taken and answered at the take (R12, R168). -/
def answered (s : State) (r : Response) : Tp :=
  { s.tp with intake := .taken, busy := false, hand := none, response := r }

/-- The Till Port after a command taken and handed to its owner: PENDING (R168). -/
def handed (s : State) (code seq : Byte) (h : Hand) : Tp :=
  { s.tp with intake := .taken, busy := true, hand := some h, response := ⟨seq, code, .pending, .none, 0, []⟩ }

/-- The response of an accepted command. -/
def acceptedAs (code seq : Byte) (tag : Tag) (data : List Byte) : Response := ⟨seq, code, .accepted, .none, tag, data⟩

/-- The response of a refused command (R12). -/
def refusedAs (code seq : Byte) (r : Reason) : Response := ⟨seq, code, .refused, r, 0, []⟩

/-- The Till Port after a local request accepted at its take, with this many completion-queue places taken for it (R24, R58). -/
def localAccepted (s : State) (tag : Tag) (places : Nat) : Tp :=
  { s.tp with
    busy := false, hand := none, taken := s.tp.taken + places
    response := { s.tp.response with result := .accepted, reason := .none, tag := tag, data := [] } }

/-- Whether the GRANTED notice of this tag waits on a record (R59). -/
def grantedIn (tag : Tag) (r : PostingRecord) : Bool :=
  r.deps.any fun d => match d with
    | .placed n _ => decide (n.outcome = .granted ∧ n.tag = tag)
    | _ => false

/-- One posting record has joined the write queue; the store is unchanged (R124, R125, R129). -/
def oneRecord (s t : State) (us : List AreaUpdate) (ds : List Dependent) : Prop :=
  t.ps = { s.ps with
    queue := s.ps.queue ++ [⟨us, ds⟩], timer := if s.ps.queue.isEmpty then 40 else s.ps.timer, waiting := t.ps.waiting }

/-- The Posting Store is unchanged but for the order of waiting steps. -/
def noRecord (s t : State) : Prop := t.ps = { s.ps with waiting := t.ps.waiting }

/-- One card record is changed, and no other (R15). -/
def oneCard (s t : State) (serial : Nat) (r : CardRecord) : Prop :=
  cardOf t serial = r ∧ ∀ k, k ≠ serial → cardOf t k = cardOf s k

/-- One line of the live pair table is changed, and no other (R57, R139). -/
def oneLine (s t : State) (st : Station) (l : PairLine) : Prop :=
  liveLine t st = l ∧ ∀ x, x ≠ st → liveLine t x = liveLine s x

/-- One slot is changed, and no other (R64). -/
def oneSlot (s t : State) (n : Nat) (sl : Option Slot) : Prop :=
  slotAt t n = sl ∧ ∀ m, m ≠ n → slotAt t m = slotAt s m

/-- One hold table entry and one held total are changed, and no other (R42). -/
def oneHold (s t : State) (i : Nat) (e : HoldEntry) (serial held : Nat) : Prop :=
  holdAt t i = e ∧ (∀ j, j ≠ i → holdAt t j = holdAt s j) ∧ heldOf t serial = held ∧
    ∀ k, k ≠ serial → heldOf t k = heldOf s k

/-- The oldest request has left the receive queue, the turn has passed to the till, these frames have entered class 0 and this
many places more are reserved there; nothing else of the line changed (R37, R38, R121). -/
def tookLine (s t : State) (frames : List (Station × Body)) (reserved : Nat) : Prop :=
  t.lc = { s.lc with
    rx := s.lc.rx.tail
    tx0 := ⟨s.lc.tx0.frames ++ frames.map fun f => ⟨f.1, f.2, 0, 0⟩, s.lc.tx0.reserved + reserved⟩ } ∧ t.ctu.turn = .till

/-- The STALL a request taken now is announced by: when 4 or more records stand (R39). -/
def stallFor (s : State) (src : Station) (tag : Tag) : List (Station × Body) :=
  if 4 ≤ s.ps.queue.length then [(src, .stall tag)] else []

/-- A card that passes the routing tests and the check sequence of R40 with its check code. -/
def cardPassesChecks (s : State) (src : Station) (card : CardNo) (check : Check) : Prop :=
  isMember s src = true ∧ cardHome card = ownStation s ∧ cardMall card = s.tp.config.mall ∧
    isIssued (cardOf s (cardSerial card)) = true ∧ cardGen card = (cardOf s (cardSerial card)).gen ∧
    check = checkOf s (cardSerial card)

/-- A complete frame of another station for this one is heard and taken: the receiver follows it, the line is not STUCK, R9's
tests pass and the receive queue has a free place (R117 to R119). -/
def hears (s : State) (src dst : Station) (b : Body) : Prop :=
  hearing s = true ∧ s.lc.line ≠ .stuck ∧ addressOk src dst b = true ∧ src ≠ ownStation s ∧
    (dst = ownStation s ∨ dst = 63) ∧ s.lc.rx.length < 16

/-- The Line Controller after a frame has ended: recessive bits are counted (R106). -/
def countingLc (s : State) : Lc := { s.lc with receiver := .counting }

/-- The state in which a slot's step has come to wait, this slot and Line Controller apart as it was: whether a free place
goes to it decides whether it is made with its cause (R81, R126). -/
def slotWaits (s : State) (lc : Lc) (n : Nat) (sl : Slot) : State :=
  settleWaiting { s with lc := lc, su := { s.su with slots := Table.put s.su.slots n sl } }

/-- A step has come to wait: the slot carries it, and no record is made (R81). -/
def slotWaiting (s t : State) (lc : Lc) (n : Nat) (sl : Slot) : Prop :=
  oneSlot s t n (some sl) ∧ noRecord s t ∧ t = { s with lc := lc, su := { s.su with slots := t.su.slots }, ps := t.ps }

/-- A filing's outcome: where a free place goes to it, its one record is made, with the area updates of R82 and the notice
attached, and the slot is NOTIFYING without a step; else the slot is NOTIFYING with the filing as its step (R81, R82). -/
def filingOutcome (s t : State) (n : Nat) (sl : Slot) (pos : FilePos) (amount : Nat) (day : Option Day) (notice : Notice) :
    Prop :=
  let w := { notifying sl with pending := some (.file pos amount day notice) }
  let d := day.getD (liveDay s)
  let f := fileActor (cardHome sl.card) pos amount d s
  if granted (slotWaits s (countingLc s) n w) = some (.slot n) then
    oneSlot s t n (some (notifying sl)) ∧ oneRecord s t f.2 [.slotNotice n { notice with day := d }] ∧
      t = { s with tp := f.1.tp, tu := f.1.tu, su := { s.su with slots := t.su.slots }, lc := countingLc s, ps := t.ps }
  else slotWaiting s t (countingLc s) n w

/-- An entry joins the Deferred Queue with its DEFERRED record, the slot's notice attached (R73, R76, R88, R89). -/
def entryJoined (s t : State) (lc : Lc) (n : Nat) (sl : Slot) (e : DeferredEntry) (notice : Notice) : Prop :=
  t.dq = { s.dq with area :=
    ⟨s.dq.area.entries ++ [e], s.dq.area.exposure + if e.origin = .offline then e.amount else 0⟩ } ∧
    oneSlot s t n (some (notifying sl)) ∧ oneRecord s t [.deferred t.dq.area] [.slotNotice n notice] ∧
    t = { s with lc := lc, su := { s.su with slots := t.su.slots }, dq := t.dq, ps := t.ps }

/-- The outcome of a CLAIMING slot's deferred entry: made where a free place goes to it, else pending (R76, R81). -/
def entryOutcome (s t : State) (lc : Lc) (n : Nat) (sl : Slot) (step : SlotStep) (e : DeferredEntry) : Prop :=
  let w := { sl with reply := none, pending := some step }
  if granted (slotWaits s lc n w) = some (.slot n) then
    entryJoined s t lc n sl e { plainNotice sl.tag sl.card .captureDeferred with amountA := sl.amount }
  else slotWaiting s t lc n w

/-- The outcome of a REDEEM whose home does not answer while the till permits an offline sale: the offline decision under its
limits where a free place goes to it, else pending (R72, R73, R81). -/
def offlineOutcome (s t : State) (lc : Lc) (n : Nat) (sl : Slot) : Prop :=
  let w := { sl with reply := none, pending := some .offline }
  if granted (slotWaits s lc n w) = some (.slot n) then
    match offlineFails s sl with
    | some r => oneSlot s t n (some (notifying sl)) ∧ noRecord s t ∧
        t = { s with lc := lc, ps := t.ps, su := { s.su with slots := t.su.slots, due := s.su.due ++
          [⟨{ plainNotice sl.tag sl.card .noAnswer with reason := r }, some n, true⟩] } }
    | none => entryJoined s t lc n sl ⟨.post, .offline, sl.card, sl.check, sl.amount, sl.tag, none, liveDay s, false, 0⟩
        { plainNotice sl.tag sl.card .offlineAccepted with amountA := sl.amount }
  else slotWaiting s t lc n w

/-- A filing of this slot changes nothing but the slot, its home's pair lines and mark, the round's computation, the late-filing
event and the write queue (R82, R83, R150). -/
def filingOnly (s t : State) (n : Nat) (sl : Slot) : Prop :=
  (∀ m, m ≠ n → slotAt t m = slotAt s m) ∧
    (Table.rises s.tu.live = true → Table.rises s.tu.closing = true → ∀ x, x ≠ cardHome sl.card →
      liveLine t x = liveLine s x ∧ closingLine t x = closingLine s x) ∧
    t.ps.store = s.ps.store ∧
    t = { s with
      tp := { s.tp with events := t.tp.events }, su := { s.su with slots := t.su.slots }, lc := countingLc s, ps := t.ps
      tu := { s.tu with
        live := t.tu.live, closing := t.tu.closing, marks := t.tu.marks, state := t.tu.state
        computing := t.tu.computing, result := t.tu.result, revised := t.tu.revised } }

/-- A slot has ended: NOTIFYING, its terminal notice due, and nothing else changed (R69, R84). -/
def ended (s t : State) (n : Nat) (sl : Slot) (notice : Notice) : Prop :=
  oneSlot s t n (some (notifying sl)) ∧ noRecord s t ∧
    t = { s with ps := t.ps, su := { s.su with slots := t.su.slots, due := s.su.due ++ [⟨notice, some n, true⟩] } }

/-- A slot has ended by an answer received (R71, R84). -/
def endedSlot (s t : State) (n : Nat) (sl : Slot) (notice : Notice) : Prop :=
  ended { s with lc := countingLc s } t n sl notice

/-- The mark a comparison of a peer's figures gives: none made without figures; DISPUTED stays DISPUTED; else MATCHED when the
peer's six figures agree crosswise with this station's closing line for it (R140, R147). -/
def comparedMark (s : State) (p : Station) (figures : Option PairLine) : PairMark :=
  match figures with
  | none => markOf s p
  | some b =>
    let l := closingLine s p
    if markOf s p = .disputed then .disputed
    else if [b.homeRed, b.homeRet, b.homeLoad, b.actRed, b.actRet, b.actLoad] =
      [l.actRed, l.actRet, l.actLoad, l.homeRed, l.homeRet, l.homeLoad] then .matched
    else .disputed

/-- One back-off line is changed, and no other (R91). -/
def oneBackoff (s t : State) (home : Station) (b : BackoffLine) : Prop :=
  backoffOf t home = b ∧ ∀ x, x ≠ home → backoffOf t x = backoffOf s x

/-- The state in which the Deferred Queue's step has come to wait: whether a free place goes to it decides whether it is made
with its cause (R95, R126). -/
def dqWaits (s : State) (lc : Lc) (backoff : Table BackoffLine) (step : DqStep) : State :=
  settleWaiting { s with lc := lc, dq := { s.dq with backoff := backoff, reply := none, pending := some step } }

/-- The change of the SENT entry: its reply timer is stopped; where a free place goes to the step, the change is made with its
one record of the DEFERRED area and of a filing `f`'s areas, with these dependents; else it is pending (R95 to R99). -/
def dqOutcome (s t : State) (lc : Lc) (step : DqStep) (area : DeferredArea) (f : State × List AreaUpdate)
    (ds : List Dependent) : Prop :=
  if granted (dqWaits s lc t.dq.backoff step) = some .dqPending then
    t.dq = { s.dq with area := area, backoff := t.dq.backoff, reply := none, pending := none } ∧
      oneRecord s t (.deferred area :: f.2) ds ∧ t = { s with tp := f.1.tp, tu := f.1.tu, lc := lc, dq := t.dq, ps := t.ps }
  else
    t.dq = { s.dq with backoff := t.dq.backoff, reply := none, pending := some step } ∧ noRecord s t ∧
      t = { s with lc := lc, dq := t.dq, ps := t.ps }

/-- The filing of an amount a home has taken: none of an amount 0 (R82, R96, R97). -/
def takenFiling (s : State) (home : Station) (amount : Nat) (day : Day) : State × List AreaUpdate :=
  if 0 < amount then fileActor home .redemption amount day s else (s, [])

/-- An answer taken by the Deferred Queue changes no card, slot or due notice, and of the line only the receiver (R95). -/
def dqOnly (s t : State) : Prop := t.ctu = s.ctu ∧ t.su = s.su ∧ t.lc = countingLc s

end Sys2Proof.Safety
end

