-- ==== Sys2Proof/WellFormed.lean ====
section
/-! DEFINITION. Which terms of Instr spell a command or an event the part can meet. Every meaning is total: an ill-formed
received frame is discarded as R9 says. -/
namespace Sys2Proof

/-- A MALFORMED command write: the code is unknown or the length is not its own (R10), in one length byte. -/
def wfMalformed (code : Byte) (ps : List Byte) : Bool :=
  decide (paramLength code ≠ some ps.length) && decide (ps.length < 256)

/-- A frame counted off the line holds as many body bytes as its length field says, at most 56 (R4, R117). -/
def wfRaw (f : RawFrame) : Bool := decide (f.body.length = f.len.toNat) && decide (f.len.toNat ≤ 56)

/-- A frame that passes the tests of R9 on source, destination and coded fields. -/
def wfFrame (src dst : Station) (b : Body) : Bool := addressOk src dst b

/-- The check of a command, constructor by constructor. -/
def Instr.wellFormed : Instr → Bool
  | .malformed c _ ps => wfMalformed c ps
  | .receiveQueueEntry f => wfRaw f
  | .stall s d t => wfFrame s d (.stall t)
  | .holdOk s d t h g a f => wfFrame s d (.holdOk t h g a f)
  | .holdNo s d t r a => wfFrame s d (.holdNo t r a)
  | .claimOk s d t a y f => wfFrame s d (.claimOk t a y f)
  | .claimNo s d t r => wfFrame s d (.claimNo t r)
  | .postOk s d t k x r y f => wfFrame s d (.postOk t k x r y f)
  | .postNo s d t r => wfFrame s d (.postNo t r)
  | .loadOk s d t b y f => wfFrame s d (.loadOk t b y f)
  | .loadNo s d t r => wfFrame s d (.loadNo t r)
  | .returnOk s d t b y => wfFrame s d (.returnOk t b y)
  | .returnNo s d t r => wfFrame s d (.returnNo t r)
  | .balance s d t c b a q => wfFrame s d (.balance t c b a q)
  | .inquireNo s d t r => wfFrame s d (.inquireNo t r)
  | .tallyOpen s d y => wfFrame s d (.tallyOpen y)
  | .tally s d y l => wfFrame s d (.tally y l)
  | .backoffExpiry h => isStation h
  | _ => true

end Sys2Proof
end

