-- ==== Sys2Proof/Certificates/Slice0/Obligations.lean ====
section
/-! DEFINITION. The statements for the provers, from the numbered rules of spec/. -/
section Statements
open Sys2Proof Sys2Proof.Machine Sys2Proof.Safety

/-! ### The machine as a whole -/

/-- A step with a command at the front of the queue is that command's meaning on the state with the queue's rest; with none
waiting and nothing due, it is one period of the reference clock (log 2). -/
def Obligations.StepRunsFrontCommand : Prop :=
  ∀ (s : State) (c : Instr) (rest : List Instr),
    step { s with pending := c :: rest } = exec c { s with pending := rest } ∧
      (isRunning s = true → due { s with pending := [] } = [] → step { s with pending := [] } = .next (clock { s with pending := [] }))

/-- Every command of the table answers a next state, in every state, and leaves the queue of waiting commands: the part has no
exception, and every refusal is a response (R12, R168). That a step of the block is a command of the same queue,
which changes nothing where its rule's conditions do not hold, is the model's choice (log 1). -/
def Obligations.EveryCommandCompletes : Prop :=
  ∀ (c : Instr) (s : State), ∃ t, exec c s = .next t ∧ t.pending = s.pending

/-- Every step keeps every sparse table in canonical form (the collections of R15, R42, R64, R91, R123, R139, R140). -/
def Obligations.StepKeepsTables : Prop :=
  ∀ s t : State, tablesCanonical s → step s = .next t → tablesCanonical t

/-- Every step keeps the liability law of R23. -/
def Obligations.StepKeepsLiability : Prop :=
  ∀ s t : State, liabilityLaw s → step s = .next t → liabilityLaw t

/-- Every step keeps the held law of R42. -/
def Obligations.StepKeepsHeldTotals : Prop := ∀ s t : State, heldLaw s → step s = .next t → heldLaw t

/-- Every step keeps the card law: a held total never exceeds its balance (R16), and a serial that is not issued carries no
balance (R34). No step but the reload that ends a start-up takes a balance above the balance ceiling in force, unless it stood
above it before (R16). -/
def Obligations.StepKeepsCards : Prop :=
  (∀ s t : State, cardLaw s → step s = .next t → cardLaw t) ∧
    ∀ s t : State, cardLaw s → s.tp.startup ≠ .reloading → step s = .next t →
      ∀ k, (cardOf t k).balance ≤ max (cardOf s k).balance s.tp.config.ceiling

/-- Every step keeps the write queue and the places held in it for waiting steps within 8, and every record at one to four area
updates (R124 to R126). That a held place is given up when its step ceases to be ready is an inference (log 36). -/
def Obligations.StepKeepsWriteQueue : Prop := ∀ s t : State, writeQueueLaw s → step s = .next t → writeQueueLaw t

/-- Every step keeps NOTICE pending while the completion queue holds a notice (R180), and keeps the place law: notices and
taken places are at most 16, and every notice with a taken place and every local hold has its place (R59, R178). -/
def Obligations.StepKeepsNoticePending : Prop :=
  (∀ s t : State, noticeLaw s → step s = .next t → noticeLaw t) ∧
    ∀ s t : State, placeLaw s → step s = .next t → placeLaw t

/-- Every step keeps the command law: BUSY exactly while a command is in hand, PENDING exactly then (R168). -/
def Obligations.StepKeepsCommandState : Prop := ∀ s t : State, commandLaw s → step s = .next t → commandLaw t

/-- Every step keeps the slot law (R66), and with it the tag and entry law: the tags of slots in use are distinct (R65), the
DEFERRED area holds at most 64 entries with distinct tags, at most one of them SENT (R87, R88), and the exposure is the sum of
the OFFLINE entries (R89), in memory, in the store and in every record. -/
def Obligations.StepKeepsSlots : Prop :=
  (∀ s t : State, slotLaw s → step s = .next t → slotLaw t) ∧
    ∀ s t : State, slotLaw s → entryLaw s → step s = .next t → entryLaw t

/-- The laws hold right after reset, and the store is one never written (R33, R42, R86, R123, R135, R175). That State.reset is
the machine once the start-up has ended is the model's choice (log 3), that STATUS reads 0 for an absent closing day an inference
(log 38). -/
def Obligations.ResetMeetsTheLaws : Prop :=
  tablesCanonical State.reset ∧ liabilityLaw State.reset ∧ cardLaw State.reset ∧ writeQueueLaw State.reset ∧
    noticeLaw State.reset ∧ placeLaw State.reset ∧ commandLaw State.reset ∧ slotLaw State.reset ∧ entryLaw State.reset ∧
    State.reset.ps.store = blankStore ∧ State.reset.tp.station = .unconfigured ∧ State.reset.lc.line = .off ∧
    State.reset.tu.state = .live ∧ State.reset.ctu.turn = .line ∧ attention State.reset = false ∧
    statusBytes State.reset = List.replicate 23 0

/-- The store's areas change at a write's completion and at no other command (R123, R125). -/
def Obligations.StoreChangesAtCompletion : Prop :=
  ∀ (c : Instr) (s t : State), exec c s = .next t → c ≠ .writeCompletion →
    { t.ps.store with torn := false } = { s.ps.store with torn := false }

/-- In HALTED-STORE no command but a restart changes a card, the capture log, the liability total, the tag sequence, the
deferred entries, the pair tables or the payout record (R35, R61, R103, R131, R155). -/
def Obligations.HaltedKeepsAccounts : Prop :=
  ∀ (c : Instr) (s t : State), exec c s = .next t → isUp s = true → isHalted s = true → restarts c = false →
    t.ctu.cards = s.ctu.cards ∧ t.ctu.capLog = s.ctu.capLog ∧ t.ctu.liability = s.ctu.liability ∧
      t.su.tagSeq = s.su.tagSeq ∧ t.dq.area = s.dq.area ∧ t.tu.live = s.tu.live ∧ t.tu.closing = s.tu.closing ∧
      t.tu.payout = s.tu.payout

/-- A DISPUTED mark stays DISPUTED until the next opening, except by a restart (R140, R147). -/
def Obligations.DisputedStays : Prop :=
  ∀ (c : Instr) (s t : State) (st : Station), exec c s = .next t → isUp s = true → Table.rises s.tu.marks = true →
    restarts c = false → c ≠ .roundOpening → markOf s st = .disputed → markOf t st = .disputed

/-- Once a peer is in the tallies-sent set its closing line does not change until the next opening, except by a restart
(R145). -/
def Obligations.ClosingLineFixed : Prop :=
  ∀ (c : Instr) (s t : State) (st : Station), exec c s = .next t → isUp s = true → Table.rises s.tu.closing = true →
    restarts c = false → c ≠ .roundOpening → inSet s.tu.round.sent st = true →
    closingLine t st = closingLine s st ∧ inSet t.tu.round.sent st = true

/-! ### Formats (spec 01) -/

/-- A body sent is the body received: the bytes R6 gives a body decode to it. -/
def Obligations.BodyRoundTrip : Prop :=
  ∀ b : Body, codedFieldsOk b = true → decodeBody (bodyKind b) (bodyBytes b) = some b

/-- A frame made for a body passes the CRC test and every test of R9, and carries that body (R4 to R6, R9). -/
def Obligations.FrameRoundTrip : Prop :=
  ∀ (cls : BitVec 2) (ordinary : Bool) (src dst : Station) (b : Body), addressOk src dst b = true →
    takenBody (makeFrame cls ordinary src dst b) = some b

/-- The record of a well-formed till command, written over the port, is that command (R10, R11). -/
def Obligations.CommandRoundTrip : Prop :=
  ∀ (c : Instr) (code seq : Byte) (ps : List Byte), c.wellFormed = true → encodeCommand c = some (code, seq, ps) →
    writtenCommand (commandTransfer code seq ps) = some c

/-- The reload restores a card record as a posting record wrote it, and its CARD area passes (R33, R34, R124). -/
def Obligations.CardAreaRoundTrip : Prop :=
  ∀ (r : CardRecord) (ceiling : Nat), tagsOk r.tags = true → (∀ e ∈ r.tags, isStation e.station = true) →
    r.balance ≤ ceiling → (isIssued r = false → r.balance = 0) →
    cardPasses ceiling (storeCard r) = true ∧ loadCard (storeCard r) = r

/-- A notice is 21 bytes, a response record 7 bytes and its data, and the data of each read has the length of R12; with every
amount below 2^24 the fields stand in R12's and R13's order: the notice with the outcome codes of R13, READ-CARD's first 20 bytes
(check code 0 for UNISSUED and while UNCONFIGURED), READ-CAPLOG, READ-DEFERRED, the summary and the peer entries of READ-PAYOUT; a
position beyond the entries, and a station without an entry, read as zeros (R12, R13, R20, R32, R50, R102, R167). That an absent
expiry day reads 0 is an inference (log 38). -/
def Obligations.RecordFormats : Prop :=
  (∀ n : Notice, (noticeBytes n).length = 21) ∧ (∀ s : State, (statusBytes s).length = 23) ∧
    (∀ (s : State) (k : Nat), (cardOf s k).tags.length ≤ 4 → (cardBytes s k).length = 36) ∧
    (∀ (l : CapLog) (p : Nat), (capBytes l p).length = 14) ∧
    (∀ (es : List DeferredEntry) (p : Nat), (deferredBytes es p).length = 21) ∧
    (∀ p, (payoutSummary p).length = 64) ∧ (∀ (s : State) (st : Station), (payoutBytes s st).length = 75) ∧
    (∀ s : State, (eventBytes s).length = 3) ∧ (∀ r : Response, (responseBytes r).length = 7 + r.data.length) ∧
    (∀ (s : State) (serial : Nat), serial < 8192 → (cardOf s serial).balance < 2 ^ 24 → heldOf s serial < 2 ^ 24 →
      (cardBytes s serial).take 20 =
        bytesOf 2 serial ++ [cardStateCode (reported s serial)] ++ bytesOf 1 (cardOf s serial).gen.toNat ++
          bytesOf 2 (if (cardOf s serial).state = .unissued ∨ s.tp.station = .unconfigured then (0 : Check)
            else checkCode (makeCard s.tp.config.mall s.tp.config.station serial (cardOf s serial).gen)
              s.tp.config.seed).toNat ++
          bytesOf 3 (cardOf s serial).balance ++ bytesOf 3 (heldOf s serial) ++
          bytesOf 2 (cardOf s serial).issueDay.toNat ++ [if (cardOf s serial).expiry.isSome then 1 else 0] ++
          bytesOf 2 ((cardOf s serial).expiry.getD 0).toNat ++ bytesOf 2 (cardOf s serial).lastDay.toNat ++
          bytesOf 1 (cardOf s serial).tags.length) ∧
    ([NoticeOutcome.empty, .granted, .captured, .captureDeferred, .offlineAccepted, .refused, .noAnswer, .cancelled, .expired,
      .loaded, .notLoaded, .returned, .inDoubt, .balance, .fault, .loss, .sold, .closed, .stateSet].map outcomeCode =
      [0, 1, 2, 3, 4, 5, 6, 7, 8, 9, 10, 11, 13, 14, 15, 16, 17, 18, 19]) ∧
    (∀ n : Notice, n.amountA < 2 ^ 24 → n.amountB < 2 ^ 24 → noticeBytes n =
      bytesOf 2 n.tag.toNat ++ [outcomeCode n.outcome, reasonCode n.reason, cardStateCode n.cardState,
        (if n.isPartial then 1 else 0) + (match n.result with | .notAsked => 0 | .foundLoad => 2 | .foundReturn => 4 | .notFound => 6)]
        ++ bytesOf 5 n.card.toNat ++ bytesOf 2 n.check.toNat ++ bytesOf 3 n.amountA ++ bytesOf 3 n.amountB ++
        bytesOf 2 n.day.toNat) ∧
    (∀ (l : CapLog) (p : Nat) (e : CapEntry), l.entries[p]? = some e → e.amount < 2 ^ 24 → e.returned < 2 ^ 24 →
      capBytes l p = [1] ++ bytesOf 1 e.station.toNat ++ bytesOf 2 e.tag.toNat ++ bytesOf 2 e.serial ++ bytesOf 3 e.amount ++
        bytesOf 3 e.returned ++ bytesOf 2 e.day.toNat) ∧
    (∀ (l : CapLog) (p : Nat), l.entries.length ≤ p → capBytes l p = List.replicate 14 0) ∧
    (∀ (es : List DeferredEntry) (p : Nat) (e : DeferredEntry), es[p]? = some e → e.amount < 2 ^ 24 →
      deferredBytes es p = [(1 : Byte), (match e.kind with | .post => 0 | .claimRetry => 1),
          (match e.origin with | .none => 0 | .offline => 1 | .late => 2), if e.sent then 1 else 0] ++ bytesOf 1 e.attempts ++
        bytesOf 5 e.card.toNat ++ bytesOf 2 e.check.toNat ++ bytesOf 3 e.amount ++ bytesOf 2 e.tag.toNat ++
        bytesOf 2 (e.holdId.getD 0).toNat ++ bytesOf 2 e.day.toNat) ∧
    (∀ (es : List DeferredEntry) (p : Nat), es.length ≤ p → deferredBytes es p = List.replicate 21 0) ∧
    (∀ r : PayoutRecord PairState, payoutSummary (some r) = [if r.revised then (3 : Byte) else 1] ++ bytesOf 2 r.day.toNat ++
      bytesOf 1 r.entries.length ++ bytesOf 6 r.payout.toNat ++ bytesOf 6 r.fee.toNat ++ blockBytes r.selfLine) ∧
    payoutSummary none = List.replicate 64 0 ∧
    (∀ (s : State) (st : Station) (r : PayoutRecord PairState) (e : PeerEntry PairState), s.tu.payout = some r →
      (r.entries.find? fun x => x.station == st) = some e → isMember s st = true → st ≠ ownStation s →
      payoutBytes s st = [(1 : Byte)] ++ bytesOf 1 st.toNat ++
        [(match e.state with | .matched => 1 | .disputed => 2 | .missing => 3 : Byte)] ++ blockBytes e.block ++
        bytesOf 6 e.netIn.toNat ++ bytesOf 6 e.feeIn.toNat ++ bytesOf 6 e.netOut.toNat ++ bytesOf 6 e.line.toNat) ∧
    (∀ (s : State) (st : Station), isMember s st = false ∨ st = ownStation s ∨ s.tu.payout = none →
      payoutBytes s st = List.replicate 75 0)

/-! ### The payout arithmetic (spec 09) -/

/-- R158, R159 and R161 for one member peer, where the exact values lie within 48 bits (R160): the nets, the fee, the line. -/
def Obligations.PeerFigures : Prop :=
  ∀ (rate : Nat) (p : PeerInput) (e : PeerEntry PairState) (redIn retIn redOut retOut loadIn loadOut : Int),
    e = peerEntry rate p → rate ≤ 1000 →
    redOut = p.line.homeRed.sum.toInt → retOut = p.line.homeRet.sum.toInt → loadIn = p.line.homeLoad.sum.toInt →
    redIn = p.line.actRed.sum.toInt → retIn = p.line.actRet.sum.toInt → loadOut = p.line.actLoad.sum.toInt →
    (∀ x ∈ [redIn, retIn, redOut, retOut, loadIn, loadOut], -(2 ^ 43) ≤ x ∧ x ≤ 2 ^ 43) →
    e.netIn.toInt = redIn - retIn ∧ e.netOut.toInt = redOut - retOut ∧
      ((redIn - retIn = 0 ∨ rate = 0) → e.feeIn.toInt = 0) ∧
      (0 < redIn - retIn → e.feeIn.toInt = ((redIn - retIn) * rate + 5000) / 10000) ∧
      (redIn - retIn < 0 → e.feeIn.toInt = -(((retIn - redIn) * rate + 5000) / 10000)) ∧
      e.line.toInt = (e.netIn.toInt - e.feeIn.toInt) - e.netOut.toInt + loadIn - loadOut

/-- R165: where two stations' closing lines for each other agree crosswise, as both marks MATCHED mean, line plus feeIn at one
end and line plus feeIn at the other sum to zero, whatever fee rates the two use, within the bound of R160. -/
def Obligations.MirrorLines : Prop :=
  ∀ (a b : PairLine) (rateA rateB : Nat) (sa sb : Station) (ma mb : PairState), crosswise b a = true →
    rateA ≤ 1000 → rateB ≤ 1000 →
    (∀ f ∈ [a.homeRed, a.homeRet, a.homeLoad, a.actRed, a.actRet, a.actLoad],
      -(2 ^ 43) ≤ f.sum.toInt ∧ f.sum.toInt ≤ 2 ^ 43) →
    ((peerEntry rateA ⟨sb, ma, a⟩).line.toInt + (peerEntry rateA ⟨sb, ma, a⟩).feeIn.toInt) +
      ((peerEntry rateB ⟨sa, mb, b⟩).line.toInt + (peerEntry rateB ⟨sa, mb, b⟩).feeIn.toInt) = 0

/-- R162 and R163: the totals run over the MATCHED peers alone, and with none both are 0; the record lists one entry for each
input and the self line as it stands. With at most 61 peers whose lines, and fees, lie from -2^41 up to below 2^41, the payout is
the sum of the lines, and the fee withheld the sum of the fees, of the MATCHED peers. -/
def Obligations.PayoutTotals : Prop :=
  ∀ (i : ComputeInputs) (revised : Bool) (p : PayoutRecord PairState), p = computePayout i revised →
    p.entries = i.peers.map (peerEntry i.rate) ∧ p.day = i.day ∧ p.revised = revised ∧ p.selfLine = i.selfLine ∧
      ((∀ x ∈ i.peers, x.state ≠ .matched) → p.payout = 0 ∧ p.fee = 0) ∧
      (∀ x, i.peers = [x] → x.state = .matched →
        p.payout = (peerEntry i.rate x).line ∧ p.fee = (peerEntry i.rate x).feeIn) ∧
      (i.peers.length ≤ 61 → (∀ e ∈ p.entries, -(2 ^ 41) ≤ e.line.toInt ∧ e.line.toInt < 2 ^ 41) →
        p.payout.toInt = ((p.entries.filter fun e => e.state == .matched).map fun e => e.line.toInt).sum) ∧
      (i.peers.length ≤ 61 → (∀ e ∈ p.entries, -(2 ^ 41) ≤ e.feeIn.toInt ∧ e.feeIn.toInt < 2 ^ 41) →
        p.fee.toInt = ((p.entries.filter fun e => e.state == .matched).map fun e => e.feeIn.toInt).sum)

/-! ### Intake and the station states (R10, R168, R169) -/

/-- A command write while the command state is BUSY or a start-up is under way, RESET and malformed writes apart, changes the
intake result and nothing else; a malformed one is MALFORMED in either command state, and changes nothing else (R10, R132,
R168). The field that holds the intake result is the model's own (log 16), and BUSY during a start-up is an inference (log
17). -/
def Obligations.IntakeRefusals : Prop :=
  ∀ (c : Instr) (s : State) (code seq : Byte) (ps : List Byte), isRunning s = true →
    (encodeCommand c = some (code, seq, ps) → (∀ q, c ≠ .reset q) → (∀ a b l, c ≠ .malformed a b l) →
      s.tp.busy = true ∨ s.tp.startup ≠ .none → exec c s = .next { s with tp := { s.tp with intake := .busy } }) ∧
    exec (.malformed code seq ps) s = .next { s with tp := { s.tp with intake := .malformed } }

/-- A card or settlement command before JOIN is refused NOT-JOINED, in HALTED-STORE STORE-FAULT, and changes nothing else
(R169); CONFIGURE in JOINED is refused STATE, JOIN in UNCONFIGURED and JOINED. That a CONFIRM or CANCEL so refused shows tag 0
is an inference (log 35). -/
def Obligations.StationStateRefusals : Prop :=
  ∀ (c : Instr) (s : State) (code seq : Byte) (ps : List Byte) (r : Reason),
    encodeCommand c = some (code, seq, ps) → idlePort s →
    (tradeCommand c = true ∧ (s.tp.station = .unconfigured ∨ s.tp.station = .configured) ∧ r = .notJoined ∨
      (tradeCommand c = true ∨ code = 0x01 ∨ code = 0x02) ∧ (∀ a b l, c ≠ .malformed a b l) ∧
        s.tp.station = .halted ∧ r = .storeFault ∨
      (∃ p, c = .configure seq p) ∧ s.tp.station = .joined ∧ r = .state ∨
      c = .join seq ∧ (s.tp.station = .unconfigured ∨ s.tp.station = .joined) ∧ r = .state) →
    nextSatisfies (exec c s) fun t => t.tp = answered s (refusedAs code seq r) ∧ onlyPort s t

/-! ### Configuration, joining, restarts -/

/-- CONFIGURE's stages: a field present is taken as sent in its range, at the nearer limit outside it, an absent one at its
default (R172); the map is the sent one within 1 to 62, or none, with the own number; the ceiling is raised to the largest balance
(R36), cap and card limit to what the entries hold (R90), the map by every station R90 and R171 name; the clamped map has bit k
where the field of present bit k so differs (R171); the new members that join the tallies-sent set (R171). -/
def Obligations.ConfigClamping : Prop :=
  ∀ (p : ConfigParams) (s : State) (a c d : ConfigRecord), 1 ≤ p.station.toNat → p.station.toNat ≤ 62 →
    a = askedConfig p → c = clampConfig a → d = settleConfig s p → tablesCanonical s →
    (∀ x ∈ [(1, p.lineRate.toNat, a.lineRate, c.lineRate, 0, 2, 1), (2, p.feeRate.toNat, a.feeRate, c.feeRate, 0, 1000, 150),
        (3, p.holdLife.toNat, a.holdLife, c.holdLife, 30, 600, 120), (4, p.window.toNat, a.window, c.window, 50, 2000, 400),
        (5, p.waitMode.toNat, a.waitMode, c.waitMode, 0, 2, 1),
        (6, p.cardLimit.toNat, a.cardLimit, c.cardLimit, 0, 50000, 5000),
        (7, p.stationCap.toNat, a.stationCap, c.stationCap, 0, 1000000, 50000),
        (8, p.ceiling.toNat, a.ceiling, c.ceiling, 1, 2000000, 500000), (9, p.quiet.toNat, a.quiet, c.quiet, 1, 30, 3),
        (10, p.tally.toNat, a.tally, c.tally, 5, 120, 30), (11, p.divisor.toNat, a.divisor, c.divisor, 1, 65535, 8000)],
      x.2.2.1 = (if p.present.getLsbD x.1 then x.2.1 else x.2.2.2.2.2.2) ∧
      x.2.2.2.1 = if p.present.getLsbD x.1 = false then x.2.2.2.2.2.2
        else if x.2.1 < x.2.2.2.2.1 then x.2.2.2.2.1 else if x.2.2.2.2.2.1 < x.2.1 then x.2.2.2.2.2.1 else x.2.1) ∧
    c.station = p.station.setWidth 6 ∧ c.mall = p.mall ∧ c.seed = p.seed ∧
    c.startDay = (if p.present.getLsbD 12 then p.startDay else 0) ∧
    (∀ st : Station, (c.members.getLsbD st.toNat = true ↔ isStation st = true ∧
      (p.present.getLsbD 0 = true ∧ p.members.getLsbD st.toNat = true ∨ st.toNat = p.station.toNat))) ∧
    d = { c with members := d.members, ceiling := d.ceiling, stationCap := d.stationCap, cardLimit := d.cardLimit } ∧
    d.ceiling = (if s.ps.store.config.isSome = true ∧ (s.ctu.cards.any fun e => decide (e.2.state ≠ .unissued)) = true then
      (s.ctu.cards.map fun e => e.2.balance).foldl max c.ceiling else c.ceiling) ∧
    d.stationCap = (if s.dq.area.entries = [] then c.stationCap else max c.stationCap s.dq.area.exposure) ∧
    d.cardLimit = (s.dq.area.entries.map fun e => cardOffline s.dq.area.entries e.card).foldl max c.cardLimit ∧
    (∀ st : Station, (d.members.getLsbD st.toNat = true ↔ isStation st = true ∧
      (c.members.getLsbD st.toNat = true ∨ (∃ e ∈ s.dq.area.entries, cardHome e.card = st) ∨
        s.tu.round.sent.getLsbD st.toNat = true ∨ (figuresOf s st).isSome = true ∨ liveLine s st ≠ blankLine ∨
        closingLine s st ≠ blankLine))) ∧
    (∀ k, k < 16 → ((clampedMap a d).getLsbD k = true ↔
      k ∈ (if a.members ≠ d.members then [0] else []) ++ (if a.lineRate ≠ d.lineRate then [1] else []) ++
        (if a.feeRate ≠ d.feeRate then [2] else []) ++ (if a.holdLife ≠ d.holdLife then [3] else []) ++
        (if a.window ≠ d.window then [4] else []) ++ (if a.waitMode ≠ d.waitMode then [5] else []) ++
        (if a.cardLimit ≠ d.cardLimit then [6] else []) ++ (if a.stationCap ≠ d.stationCap then [7] else []) ++
        (if a.ceiling ≠ d.ceiling then [8] else []) ++ (if a.quiet ≠ d.quiet then [9] else []) ++
        (if a.tally ≠ d.tally then [10] else []) ++ (if a.divisor ≠ d.divisor then [11] else []))) ∧
    (∀ st : Station, ((joiningMembers s d).getLsbD st.toNat = true ↔ s.tu.round.day.isSome = true ∧
      (s.tu.round.sent ≠ 0 ∨ s.tu.round.computed = true) ∧ d.members.getLsbD st.toNat = true ∧
      s.tp.config.members.getLsbD st.toNat = false ∧ st ≠ d.station)) ∧
    configInRange c = true

/-- CONFIGURE that passes its tests: the configuration and the divisor change when the record is made, the response stays
PENDING until it is durable, the live day is set when the store holds none, and the members that join the tallies-sent set are
written with the round part (R137, R171, R184). That the station state stays as it was until the record is durable is an
inference (log 10). -/
def Obligations.ConfigureTaken : Prop :=
  ∀ (s : State) (seq : Byte) (p : ConfigParams) (c : ConfigRecord) (joining : StationSet), idlePort s →
    (s.tp.station = .unconfigured ∨ s.tp.station = .configured) → configureTests s p = none → s.ps.queue = [] →
    c = settleConfig s p → joining = joiningMembers s c →
    nextSatisfies (exec (.configure seq p) s) fun t =>
      t.tp = { handed s 0x01 seq .configureMade with config := c, divisor := c.divisor, refCount := 0 } ∧
      t.tu = { s.tu with
        liveDay := if s.ps.store.liveDay = none then some c.startDay else s.tu.liveDay
        round := { s.tu.round with sent := s.tu.round.sent ||| joining } } ∧
      oneRecord s t (.config c :: (if s.ps.store.liveDay = none then [.liveDay c.startDay] else []) ++
        if joining = 0 then [] else [.roundPart { s.tu.round with sent := s.tu.round.sent ||| joining }])
        [.configured (clampedMap (askedConfig p) c)] ∧
      t = { s with tp := t.tp, tu := t.tu, ps := t.ps }

/-- JOIN in CONFIGURED: JOINED, the line ACTIVE, the stuck timer at 500 ms, the receiver searching, and a rebuilt round resumed
(R105, R156, R173). -/
def Obligations.JoinTaken : Prop :=
  ∀ (s : State) (seq : Byte), idlePort s → s.tp.station = .configured →
    nextSatisfies (exec (.join seq) s) fun t =>
      t.tp = { answered s (acceptedAs 0x02 seq 0 []) with station := .joined } ∧
      t.lc = { s.lc with line := .active, stuck := 500, receiver := .searching } ∧
      (s.tu.state = .quiet → t.tu = { s.tu with quiet := some (s.tp.config.quiet * 1000) }) ∧
      (s.tu.state = .tallying → memberPeers s ≠ [] → t.tu = { s.tu with sendList := memberPeers s, tally := none }) ∧
      (s.tu.state ≠ .quiet → s.tu.state ≠ .tallying → t.tu = s.tu) ∧ noRecord s t ∧
      t = { s with tp := t.tp, lc := t.lc, tu := t.tu, ps := t.ps }

/-- RESET in every command state and station state: the command in hand and the queues go, the line falls to OFF, the cause is
COMMAND once no write is under way; with one under way the start-up first lets it end and releases none of its dependents
(R122, R132, R174, R175). Which state goes at the take and which at the later steps of R132 is an inference (log 17). -/
def Obligations.ResetTaken : Prop :=
  ∀ (s : State) (seq : Byte), isRunning s = true →
    nextSatisfies (exec (.reset seq) s) fun t =>
      t.tp.busy = true ∧ t.tp.hand = none ∧ t.tp.config = s.tp.config ∧ t.tp.divisor = s.tp.divisor ∧
      t.lc = blankLc ∧ t.su = blankSu ∧ t.ps.store = s.ps.store ∧ t.ps.waiting = [] ∧ t.tp.intake = .taken ∧
      (s.ps.queue = [] → t.tp.startup = .reloading ∧ t.tp.cause = .command ∧ t.tp.response = blankResponse ∧
        t.tp.notices = [] ∧ t.tp.taken = 0 ∧ t.tp.events = 0 ∧ t.tp.mask = 0 ∧ t.tp.allMask = false ∧
        t.ps.queue = []) ∧
      (∀ r rest, s.ps.queue = r :: rest → t.tp.startup = .finishing ∧ t.ps.queue = [{ r with deps := [] }] ∧
        t.ps.timer = s.ps.timer)

/-- A power failure and the reset input tear the write under way and end the queue; every area keeps what the last completion
left (R128, R138, R175); power-up and the release of the reset input begin a start-up with cause POWER and divisor 8,000
(R132, R175, R184). What a stopped part shows meanwhile is the model's choice (log 23). -/
def Obligations.PowerAndResetPin : Prop :=
  ∀ s : State,
    (s.tp.powered = true → nextSatisfies (exec .powerFailure s) fun t => t.tp.powered = false ∧ t.ps.queue = [] ∧
      t.ps.store = { s.ps.store with torn := s.ps.store.torn || !s.ps.queue.isEmpty } ∧ t.lc = blankLc) ∧
    (s.tp.rstHeld = false → nextSatisfies (exec .resetInputAssert s) fun t => t.tp.rstHeld = true ∧ t.ps.queue = [] ∧
      t.ps.store = { s.ps.store with torn := s.ps.store.torn || !s.ps.queue.isEmpty } ∧ t.lc = blankLc) ∧
    (s.tp.powered = false → s.tp.rstHeld = false → nextSatisfies (exec .powerUp s) fun t =>
      t.tp = { resetTp with startup := .reloading, busy := true } ∧ t.ps.store = s.ps.store ∧ t.ps.queue = []) ∧
    (s.tp.powered = true → s.tp.rstHeld = true → nextSatisfies (exec .resetInputRelease s) fun t =>
      t.tp = { resetTp with startup := .reloading, busy := true } ∧ t.ps.store = s.ps.store ∧ t.ps.queue = [])

/-- RELOAD: every area that passes comes into its owner's memory, the volatile state of every block is at reset, SENT entries
become WAITING with their attempts raised, totals are recomputed, and the station is CONFIGURED or UNCONFIGURED; a reload that
fails an area's test gives HALTED-STORE and sets STORE (R33, R86, R104, R126, R133 to R136, R141, R156). What stands of the areas
from the failing one on is an inference (log 9); the mall code, seed and live day held without a configuration are the model's
choice (log 30). -/
def Obligations.ReloadRestores : Prop :=
  ∀ s : State, isRunning s = true → s.tp.startup = .reloading →
    nextSatisfies (exec .reload s) fun t =>
      t.tp.startup = .none ∧ t.tp.busy = false ∧ t.tp.hand = none ∧ t.tp.cause = s.tp.cause ∧
      t.tp = { s.tp with
        startup := .none, busy := false, hand := none, refCount := 0, station := t.tp.station, events := t.tp.events
        config := t.tp.config, divisor := t.tp.divisor } ∧
      t.ctu.held = [] ∧ t.ctu.holds = [] ∧ t.ctu.turn = .line ∧ t.ctu.liability = totalBalance t.ctu.cards ∧
      t.su.slots = [] ∧ t.su.due = [] ∧
      t.dq.area.exposure = offlineSum t.dq.area.entries ∧ t.dq.backoff = [] ∧ t.dq.reply = none ∧ t.dq.stalls = 0 ∧
      t.dq.pending = none ∧ t.lc = blankLc ∧ t.ps.queue = [] ∧ t.ps.timer = 0 ∧ t.ps.waiting = [] ∧
      { t.ps.store with torn := s.ps.store.torn } = s.ps.store ∧
      t.tu.quiet = none ∧ t.tu.tally = none ∧ t.tu.opening = none ∧ t.tu.cutShort = false ∧ t.tu.heldOpen = none ∧
      t.tu.sendList = [] ∧ t.tu.inbound = [] ∧ t.tu.computing = none ∧ t.tu.result = none ∧
      t.choices = s.choices ∧ t.pending = s.pending ∧
      (reloadSucceeds s.ps.store = false →
        t.tp.station = .halted ∧ t.tp.events = s.tp.events ||| 0x04 ∧ t.tu.state = .live ∧
        t.tp.config = (validConfig s.ps.store).getD defaultConfig ∧ t.tp.divisor = t.tp.config.divisor) ∧
      (reloadSucceeds s.ps.store = true →
        t.tp.events = s.tp.events ∧ t.tu.live = s.ps.store.live ∧ t.tu.closing = s.ps.store.closing ∧
        t.tu.round = s.ps.store.round ∧ t.tu.figures = s.ps.store.figures ∧ t.tu.liveDay = s.ps.store.liveDay ∧
        t.su.tagSeq = s.ps.store.tagSeq ∧ t.ctu.capLog = s.ps.store.capLog ∧
        t.dq.area.entries = s.ps.store.deferred.entries.map (fun e =>
          if e.sent then { e with sent := false, attempts := min (e.attempts + 1) 255 } else e) ∧
        (Table.rises s.ps.store.cards = true →
          ∀ k, cardOf t k = loadCard (Table.get blankStoredCard s.ps.store.cards k)) ∧
        t.tu.marks = readMarks s.ps.store.marks ∧ t.tu.payout = s.ps.store.payout.map (mapPayout pairStateOfCode) ∧
        t.tu.revised = (match s.ps.store.payout, s.ps.store.round.day with
          | some r, some d => decide (r.day = d)
          | _, _ => false) ∧
        t.tu.state = rebuiltState s.ps.store.round ∧
        (∀ c, s.ps.store.config = some c →
          t.tp.station = .configured ∧ t.tp.config = c ∧ t.tp.divisor = c.divisor) ∧
        (s.ps.store.config = none →
          t.tp.station = .unconfigured ∧ t.tp.config = defaultConfig ∧ t.tp.divisor = 8000))

/-! ### Status, reads, notices, events (R176 to R182) -/

/-- STATUS answers its 23 bytes at the take and changes nothing else (R176). That an absent closing day reads 0 is an inference
(log 38). -/
def Obligations.StatusTaken : Prop :=
  ∀ (s : State) (seq : Byte), idlePort s →
    nextSatisfies (exec (.status seq) s) fun t =>
      t.tp = answered s (acceptedAs 0x04 seq 0
        ([stationCode s.tp.station, causeCode s.tp.cause,
          if s.tp.station = .unconfigured then 0 else s.tp.config.station.setWidth 8, lineCode s.lc.line,
          roundCode s.tu.state] ++ bytesOf 2 (s.tu.liveDay.getD 0).toNat ++
          [if s.tu.round.day.isSome then 1 else 0] ++ bytesOf 2 (s.tu.round.day.getD 0).toNat ++
          bytesOf 6 s.ctu.liability ++ bytesOf 3 (amount24 s.dq.area.exposure).toNat ++ bytesOf 1 s.su.slots.length ++
          bytesOf 1 s.dq.area.entries.length ++ bytesOf 1 s.tp.notices.length ++ bytesOf 1 s.ps.queue.length)) ∧
      onlyPort s t

/-- The four reads answer from memory at the take and change nothing else; a position out of range is refused INDEX (R12,
R177). Each transfer first shifts out the port status byte: BUSY, attention, a notice standing, HALTED-STORE (R10); the attention
line is asserted while the all-mask flag is on and an event is pending and in the mask (R183); the trailing byte of a command
write is its intake result, a response read is the response record and 0x00 behind it, and another transfer is 0x00 (R10). What
is shifted out while a command write's other bytes come in is a free value (log 28); that a response read shows the record as it
stood when the transfer began is the model's choice (log 39). -/
def Obligations.ReadsTaken : Prop :=
  (∀ (s : State) (seq : Byte) (serial position : BitVec 16) (place index : Byte), idlePort s →
    (nextSatisfies (exec (.readCard seq serial) s) fun t => onlyPort s t ∧ t.tp = answered s
      (if serial.toNat ≤ 8191 then acceptedAs 0x40 seq 0 (cardBytes s serial.toNat) else refusedAs 0x40 seq .index)) ∧
    (nextSatisfies (exec (.readCaplog seq position) s) fun t => onlyPort s t ∧ t.tp = answered s
      (if position.toNat ≤ 1023 then acceptedAs 0x41 seq 0 (capBytes s.ctu.capLog position.toNat)
        else refusedAs 0x41 seq .index)) ∧
    (nextSatisfies (exec (.readDeferred seq place) s) fun t => onlyPort s t ∧ t.tp = answered s
      (if place.toNat ≤ 63 then acceptedAs 0x42 seq 0 (deferredBytes s.dq.area.entries place.toNat)
        else refusedAs 0x42 seq .index)) ∧
    (nextSatisfies (exec (.readPayout seq index) s) fun t => onlyPort s t ∧ t.tp = answered s
      (if 62 < index.toNat then refusedAs 0x43 seq .index
        else if index = 0 then acceptedAs 0x43 seq 0 (payoutSummary s.tu.payout)
        else acceptedAs 0x43 seq 0 (payoutBytes s (index.setWidth 6))))) ∧
  (∀ s : State,
    (∀ i, (portStatus s).getLsbD i = (decide (i = 0) && s.tp.busy || decide (i = 1) && attention s ||
      decide (i = 2) && decide (s.tp.notices ≠ []) || decide (i = 3) && decide (s.tp.station = .halted))) ∧
    (attention s = true ↔ s.tp.allMask = true ∧ ∃ i, s.tp.events.getLsbD i = true ∧ s.tp.mask.getLsbD i = true)) ∧
  ∀ (s t : State) (code seq n trailing x : Byte) (ps sent : List Byte), ps.length = n.toNat → x ≠ 0x01 → x ≠ 0x02 →
    (shiftedOut s t 0x01 ([code, seq, n] ++ ps ++ [trailing]))[0]? = some (portStatus s) ∧
    (shiftedOut s t 0x01 ([code, seq, n] ++ ps ++ [trailing]))[4 + n.toNat]? =
      some (match t.tp.intake with | .none | .taken => 0x00 | .busy => 0x01 | .malformed => 0x02) ∧
    shiftedOut s t 0x02 sent = portStatus s ::
      (responseBytes s.tp.response ++ List.replicate sent.length 0).take sent.length ∧
    shiftedOut s t x sent = portStatus s :: List.replicate sent.length 0

/-- TAKE-NOTICE hands out the oldest notice and frees its place, or answers EMPTY and changes nothing; the oldest waiting notice
enters the freed place after the response is formed, and a terminal one frees its slot (R84, R179). A notice that has fallen due
while a place is free waits for its entry by NOTICE_ENTRY, as the table's row has it (log 14). -/
def Obligations.TakeNoticeTaken : Prop :=
  ∀ (s : State) (seq : Byte), idlePort s →
    nextSatisfies (exec (.takeNotice seq) s) fun t =>
      (s.tp.notices = [] → onlyPort s t ∧ t.tp = answered s (acceptedAs 0x50 seq 0 (List.replicate 21 0))) ∧
      (∀ n rest, s.tp.notices = n :: rest → s.su.due = [] → onlyPort s t ∧
        t.tp = { answered s (acceptedAs 0x50 seq 0 (noticeBytes n)) with notices := rest }) ∧
      (∀ n rest d ds, s.tp.notices = n :: rest → s.su.due = d :: ds → s.tp.notices.length + s.tp.taken ≤ 16 →
        t.tp = { answered s (acceptedAs 0x50 seq 0 (noticeBytes n)) with
          notices := rest ++ [d.notice], events := s.tp.events ||| 0x01 } ∧
        t.su = { s.su with slots := t.su.slots, due := ds } ∧
        (∀ k, d.slot = some k → d.terminal = true → Table.rises s.su.slots = true → oneSlot s t k none) ∧
        (d.slot = none ∨ d.terminal = false → t.su.slots = s.su.slots) ∧ noRecord s t ∧
        t = { s with tp := t.tp, su := t.su, ps := t.ps })

/-- CLEAR-EVENTS removes the named events, NOTICE only when the completion queue holds no notice (R181). -/
def Obligations.ClearEventsTaken : Prop :=
  ∀ (s : State) (seq e : Byte), idlePort s → noticeLaw s →
    nextSatisfies (exec (.clearEvents seq e) s) fun t => onlyPort s t ∧
      t.tp = { answered s (acceptedAs 0x52 seq 0 []) with events := t.tp.events } ∧
      (∀ i, i < 8 → t.tp.events.getLsbD i =
        (s.tp.events.getLsbD i && (!e.getLsbD i || (i == 0 && !s.tp.notices.isEmpty))))

/-- SET-MASK replaces mask and flag and removes every pending event outside the new mask, NOTICE apart while a notice stands
(R180, R182); READ-EVENTS returns set, mask and flag and changes nothing (R180). -/
def Obligations.SetMaskAndReadEvents : Prop :=
  ∀ (s : State) (seq m : Byte) (f : Bool), idlePort s →
    (noticeLaw s → nextSatisfies (exec (.setMask seq m f) s) fun t => onlyPort s t ∧
      t.tp = { answered s (acceptedAs 0x53 seq 0 []) with events := t.tp.events, mask := m, allMask := f } ∧
      (∀ i, i < 8 → t.tp.events.getLsbD i =
        (s.tp.events.getLsbD i && (m.getLsbD i || (i == 0 && !s.tp.notices.isEmpty))))) ∧
    (nextSatisfies (exec (.readEvents seq) s) fun t => onlyPort s t ∧ t.tp = answered s (acceptedAs 0x51 seq 0
      [s.tp.events, s.tp.mask, if s.tp.allMask then 1 else 0]))

/-! ### Card and settlement commands at intake (R67, R74, R75, R142, R153, R170) -/

/-- In JOINED the home till operations go to the Card Table Unit, PENDING; CLOSE, FREEZE and UNFREEZE of a card whose home is no
member are refused NO-HOME (R24, R168, R170). -/
def Obligations.HomeCommandsHanded : Prop :=
  ∀ (s : State) (seq : Byte) (card : CardNo) (amount : Amount) (expiry : Option Day), idlePort s →
    s.tp.station = .joined →
    (nextSatisfies (exec (.sell seq amount expiry) s) fun t =>
      t.tp = handed s 0x10 seq (.homeOp (.sell amount.toNat expiry)) ∧ onlyPort s t) ∧
    ∀ x ∈ [(Instr.close seq card, (0x11 : Byte), HomeOp.close card), (.freeze seq card, 0x12, .freeze card),
        (.unfreeze seq card, 0x13, .unfreeze card)],
      nextSatisfies (exec x.1 s) fun t => onlyPort s t ∧ t.tp =
        if isMember s (cardHome card) then handed s x.2.1 seq (.homeOp x.2.2) else answered s (refusedAs x.2.1 seq .noHome)

/-- In JOINED, LOAD, REDEEM, RETURN and INQUIRE go to the local path on the station's own card, are refused NO-HOME on a card
whose home is no member, are refused AMOUNT outside 1 to the balance ceiling (INQUIRE apart), and else go to the Slot Unit; a
RETURN that names a deferred entry's tag goes to the Deferred Queue (R58, R67, R170). -/
def Obligations.CardCommandsRouted : Prop :=
  ∀ (s : State) (seq : Byte) (card : CardNo) (check : Check) (amount : Amount) (tag : Tag) (asked : Option Tag)
    (split offline : Bool), idlePort s → s.tp.station = .joined →
    ∀ x ∈ [(Instr.load seq card check amount, (0x20 : Byte), LocalReq.load card check amount.toNat,
          (⟨.load, card, check, amount.toNat, false, false, 0, none⟩ : OpenReq)),
        (.redeem seq card check amount split offline, 0x21, .redeem card check amount.toNat split,
          ⟨.redeem, card, check, amount.toNat, split, offline, 0, none⟩),
        (.returnCard seq card tag amount, 0x24, .ret card tag amount.toNat,
          ⟨.ret, card, 0, amount.toNat, false, false, tag, none⟩),
        (.inquire seq card check asked, 0x25, .inquire card check asked,
          ⟨.inquire, card, check, 0, false, false, 0, asked⟩)],
      nextSatisfies (exec x.1 s) fun t => onlyPort s t ∧ t.tp =
        if cardHome card = ownStation s then handed s x.2.1 seq (.localReq x.2.2.1)
        else if isMember s (cardHome card) = false then answered s (refusedAs x.2.1 seq .noHome)
        else if x.2.2.2.kind ≠ .inquire ∧ ¬ (1 ≤ amount.toNat ∧ amount.toNat ≤ s.tp.config.ceiling) then
          answered s (refusedAs x.2.1 seq .amount)
        else if x.2.2.2.kind = .ret ∧ (s.dq.area.entries.any fun e => e.tag == tag) = true then
          handed s x.2.1 seq (.dqReturn card tag amount.toNat)
        else handed s x.2.1 seq (.opening x.2.2.2)

/-- CONFIRM and CANCEL. A tag of a live local hold sends them to the Card Table Unit, a CONFIRM outside 1 to the grant refused
AMOUNT (R59, R170). Else, on a slot in HELD, CONFIRM queues the CLAIM and starts the reply timer, CANCEL ends the slot with
CANCELLED and a DROP when class 2 has a place; a tag with no slot in HELD is refused NO-SLOT, an amount outside 1 to the grant
AMOUNT, a CONFIRM without a class-2 place LINE-BUSY (R74, R75). That a CONFIRM refused on the slot or hold it names shows that tag
is an inference (log 35). -/
def Obligations.SlotConfirmAndCancel : Prop :=
  ∀ (s : State) (seq : Byte) (tag : Tag) (amount : Amount) (n i : Nat) (sl : Slot) (h : LiveHold) (id : HoldId) (grant : Nat),
    idlePort s → s.tp.station = .joined →
    (localHold s tag = none → heldSlot s tag = some (n, sl) → sl.hold = some (id, grant) → 1 ≤ amount.toNat →
      amount.toNat ≤ grant → 1 ≤ txFree s .c2 →
      nextSatisfies (exec (.confirm seq tag amount) s) fun t =>
        t.tp = answered s (acceptedAs 0x22 seq tag []) ∧
        oneSlot s t n (some { sl with
          amount := amount.toNat, state := .claiming, reply := some s.tp.config.window, stalls := 0, holdTimer := none }) ∧
        t = { s with
          tp := t.tp, su := { s.su with slots := t.su.slots }, ps := { s.ps with waiting := t.ps.waiting }
          lc := { s.lc with tx2 := { s.lc.tx2 with frames := s.lc.tx2.frames ++
            [⟨cardHome sl.card, .claim tag sl.card id amount false, 0, 0⟩] } } }) ∧
    (localHold s tag = none → heldSlot s tag = some (n, sl) → sl.hold = some (id, grant) →
      nextSatisfies (exec (.cancel seq tag) s) fun t =>
        t.tp = answered s (acceptedAs 0x23 seq tag []) ∧ oneSlot s t n (some (notifying sl)) ∧
        t = { s with
          tp := t.tp, ps := { s.ps with waiting := t.ps.waiting }
          su := { s.su with slots := t.su.slots, due := s.su.due ++
            [⟨{ plainNotice tag sl.card .cancelled with amountA := grant }, some n, true⟩] }
          lc := { s.lc with tx2 := { s.lc.tx2 with frames := s.lc.tx2.frames ++
            (if 1 ≤ txFree s .c2 then [⟨cardHome sl.card, .drop tag id, 0, 0⟩] else []) } } }) ∧
    (localHold s tag = none → heldSlot s tag = none →
      ∀ x ∈ [(Instr.confirm seq tag amount, (0x22 : Byte)), (.cancel seq tag, 0x23)],
      nextSatisfies (exec x.1 s) fun t => onlyPort s t ∧ t.tp = answered s (refusedAs x.2 seq .noSlot)) ∧
    (localHold s tag = none → heldSlot s tag = some (n, sl) → sl.hold = some (id, grant) →
      amount.toNat < 1 ∨ grant < amount.toNat ∨ txFree s .c2 = 0 →
      nextSatisfies (exec (.confirm seq tag amount) s) fun t => onlyPort s t ∧ t.tp = answered s { refusedAs 0x22 seq
        (if amount.toNat < 1 ∨ grant < amount.toNat then .amount else .lineBusy) with tag := tag }) ∧
    (localHold s tag = some (i, h) →
      (nextSatisfies (exec (.confirm seq tag amount) s) fun t => onlyPort s t ∧ t.tp =
        if 1 ≤ amount.toNat ∧ amount.toNat ≤ h.grant then handed s 0x22 seq (.localReq (.confirm tag amount.toNat))
        else answered s { refusedAs 0x22 seq .amount with tag := tag }) ∧
      nextSatisfies (exec (.cancel seq tag) s) fun t => onlyPort s t ∧
        t.tp = handed s 0x23 seq (.localReq (.cancel tag)))

/-- SETTLE of the live day in LIVE or SETTLED becomes the pending opening and stays PENDING; it is refused STATE in QUIET,
TALLYING and COMPUTING, and DAY for another day (R142). RECOUNT in TALLYING or SETTLED, no opening pending, sets the sending
list to every member peer; otherwise it is refused STATE (R153). That the tally timer starts at once where
there is no member peer (log 18), and that a result waiting for its record is kept (log 37), are inferences. -/
def Obligations.SettleAndRecount : Prop :=
  ∀ (s : State) (seq : Byte) (day : Day), idlePort s → s.tp.station = .joined →
    (nextSatisfies (exec (.settle seq day) s) fun t =>
      (if s.tu.state = .live ∨ s.tu.state = .settled then
        if s.tu.liveDay = some day then
          t.tp = handed s 0x30 seq .settle ∧ t.tu = { s.tu with opening := some ⟨day, true, true⟩ }
        else t.tp = answered s (refusedAs 0x30 seq .day) ∧ t.tu = s.tu
      else t.tp = answered s (refusedAs 0x30 seq .state) ∧ t.tu = s.tu) ∧ noRecord s t ∧
      t = { s with tp := t.tp, tu := t.tu, ps := t.ps }) ∧
    (nextSatisfies (exec (.recount seq) s) fun t =>
      (if s.tu.opening = none ∧ (s.tu.state = .tallying ∨ s.tu.state = .settled) then
        t.tp = answered s (acceptedAs 0x31 seq 0 []) ∧ t.tu = { s.tu with
          state := .tallying, sendList := memberPeers s, revised := s.tu.revised || s.tu.state == .settled
          tally := if memberPeers s = [] then some (s.tp.config.tally * 1000) else none }
      else t.tp = answered s (refusedAs 0x31 seq .state) ∧ t.tu = s.tu) ∧ noRecord s t ∧
      t = { s with tp := t.tp, tu := t.tu, ps := t.ps })

/-! ### Takes of the Card Table Unit (spec 02, 03) -/

/-- SELL, CLOSE, FREEZE and UNFREEZE at their takes: the card record, the liability total, the tag, the taken place, one record of CARD and TAGSEQ
with the notice attached, the response ACCEPTED (R19, R22 to R24, R27, R30). -/
def Obligations.HomeOperationTaken : Prop :=
  ∀ (s : State) (amount serial : Nat) (expiry : Option Day) (card : CardNo) (r : CardRecord) (n : Notice) (asked : Nat),
    takesLocal s = true → Table.rises s.ctu.cards = true → 1 ≤ sparePlaces s →
    (s.tp.hand = some (.homeOp (.sell amount expiry)) ∧ 1 ≤ amount ∧ amount ≤ s.tp.config.ceiling ∧
        (∀ e, expiry = some e → earlier e (liveDay s) = false) ∧ sellable s = some serial ∧
        r = ⟨.active, (cardOf s serial).gen + 1, amount, liveDay s, expiry, liveDay s, []⟩ ∧ asked = amount ∧
        card = makeCard s.tp.config.mall s.tp.config.station serial r.gen ∧
        n = { plainNotice (nextTag s) card .sold with
          check := checkCode card s.tp.config.seed, cardState := .active, amountA := amount } ∨
      s.tp.hand = some (.homeOp (.close card)) ∧ homeCardTests s card = none ∧ serial = cardSerial card ∧
        heldOf s serial = 0 ∧ asked = 0 ∧
        r = { cardOf s serial with state := .closed, balance := 0, lastDay := liveDay s } ∧
        n = { plainNotice (nextTag s) card .closed with amountA := (cardOf s serial).balance } ∨
      s.tp.hand = some (.homeOp (.freeze card)) ∧ homeCardTests s card = none ∧ serial = cardSerial card ∧
        reported s serial = .active ∧ asked = 0 ∧ r = { cardOf s serial with state := .frozen, lastDay := liveDay s } ∧
        n = { plainNotice (nextTag s) card .stateSet with cardState := .frozen } ∨
      s.tp.hand = some (.homeOp (.unfreeze card)) ∧ homeCardTests s card = none ∧ serial = cardSerial card ∧
        reported s serial = .frozen ∧ asked = 0 ∧ r = { cardOf s serial with state := .active, lastDay := liveDay s } ∧
        n = { plainNotice (nextTag s) card .stateSet with cardState := .active }) →
    nextSatisfies (exec .homeOperationTake s) fun t =>
      oneCard s t serial r ∧
      t.ctu = { s.ctu with
        cards := t.ctu.cards, liability := s.ctu.liability + r.balance - (cardOf s serial).balance, turn := .line } ∧
      t.su = { s.su with tagSeq := nextTag s } ∧
      t.tp = { s.tp with
        busy := false, hand := none, taken := s.tp.taken + 1
        response := { s.tp.response with result := .accepted, reason := .none, tag := nextTag s, data := [] } } ∧
      oneRecord s t [.card serial r, .tagSeq (nextTag s)] [.placed n asked] ∧
      t = { s with tp := t.tp, ctu := t.ctu, su := t.su, ps := t.ps }

/-- The local requests at their takes. REDEEM: its hold with two completion-queue places, a record of TAGSEQ with GRANTED
attached (R42, R58, R59). LOAD, RETURN: the card, the self line, for RETURN the capture, their record with the notice; INQUIRE: a
record of TAGSEQ with BALANCE (R58, R60). CONFIRM of 1 to the grant: a claim with the hold's tag; CANCEL: the entry free, CANCELLED
in the second place, behind a GRANTED that has not entered; without the hold both are refused NO-SLOT (R59), with
tag 0 by inference (log 35). The layout of the capture log is the model's (log 22). -/
def Obligations.LocalRedeemTaken : Prop :=
  (∀ (s : State) (card : CardNo) (check : Check) (amount grant i : Nat) (split : Bool), takesLocal s = true →
    s.tp.hand = some (.localReq (.redeem card check amount split)) → cardMall card = s.tp.config.mall →
    isIssued (cardOf s (cardSerial card)) = true → cardGen card = (cardOf s (cardSerial card)).gen →
    check = checkOf s (cardSerial card) → 1 ≤ amount → amount ≤ s.tp.config.ceiling →
    reported s (cardSerial card) = .active → holdsOn s (cardSerial card) < 4 → freeHold s = some i →
    (amount ≤ available s (cardSerial card) ∧ grant = amount ∨
      0 < available s (cardSerial card) ∧ available s (cardSerial card) < amount ∧ split = true ∧
        grant = available s (cardSerial card)) → 2 ≤ sparePlaces s →
    nextSatisfies (exec .localRequestTake s) fun t =>
      oneHold s t i ⟨(holdAt s i).gen + 1,
        some ⟨cardSerial card, ownStation s, nextTag s, grant, s.tp.config.holdLife * 1000, 2⟩⟩
        (cardSerial card) (heldOf s (cardSerial card) + grant) ∧
      t.ctu = { s.ctu with holds := t.ctu.holds, held := t.ctu.held, turn := .line } ∧
      t.su = { s.su with tagSeq := nextTag s } ∧ t.tp = localAccepted s (nextTag s) 2 ∧
      oneRecord s t [.tagSeq (nextTag s)] [.placed { plainNotice (nextTag s) card .granted with
        amountA := grant, amountB := available s (cardSerial card) - grant, isPartial := decide (grant < amount) } amount] ∧
      t = { s with tp := t.tp, ctu := t.ctu, su := t.su, ps := t.ps }) ∧
  (∀ (s : State) (card : CardNo) (check : Check) (amount : Nat) (origTag : Tag) (asked : Option Tag) (c : CapEntry)
    (r : CardRecord) (l : PairLine), takesLocal s = true → cardMall card = s.tp.config.mall →
    isIssued (cardOf s (cardSerial card)) = true → cardGen card = (cardOf s (cardSerial card)).gen → 1 ≤ sparePlaces s →
    Table.rises s.ctu.cards = true → Table.rises s.tu.live = true →
    (s.tp.hand = some (.localReq (.load card check amount)) → check = checkOf s (cardSerial card) → 1 ≤ amount →
      reported s (cardSerial card) = .active → (cardOf s (cardSerial card)).balance + amount ≤ s.tp.config.ceiling →
      r = { cardOf s (cardSerial card) with
        balance := (cardOf s (cardSerial card)).balance + amount, lastDay := liveDay s
        tags := joinTag (cardOf s (cardSerial card)).tags ⟨ownStation s, nextTag s, .load⟩ } →
      l = { liveLine s (ownStation s) with homeLoad := countFigure (liveLine s (ownStation s)).homeLoad amount } →
      nextSatisfies (exec .localRequestTake s) fun t =>
        oneCard s t (cardSerial card) r ∧ oneLine s t (ownStation s) l ∧
        t.ctu = { s.ctu with cards := t.ctu.cards, liability := s.ctu.liability + amount, turn := .line } ∧
        t.su = { s.su with tagSeq := nextTag s } ∧ t.tp = localAccepted s (nextTag s) 1 ∧
        oneRecord s t [.card (cardSerial card) r, .pairLive (ownStation s) l, .tagSeq (nextTag s)]
          [.placed { plainNotice (nextTag s) card .loaded with
            amountA := amount, amountB := r.balance, day := liveDay s } amount] ∧
        t = { s with tp := t.tp, ctu := t.ctu, su := t.su, ps := t.ps, tu := { s.tu with live := t.tu.live } }) ∧
    (s.tp.hand = some (.localReq (.ret card origTag amount)) → 1 ≤ amount → findCapture s (ownStation s) origTag = some c →
      c.serial = cardSerial card → c.returned + amount ≤ c.amount → reported s (cardSerial card) ≠ .expired →
      (cardOf s (cardSerial card)).balance + amount ≤ s.tp.config.ceiling →
      r = { cardOf s (cardSerial card) with
        balance := (cardOf s (cardSerial card)).balance + amount, lastDay := liveDay s
        tags := joinTag (cardOf s (cardSerial card)).tags ⟨ownStation s, nextTag s, .ret⟩ } →
      l = { liveLine s (ownStation s) with homeRet := countFigure (liveLine s (ownStation s)).homeRet amount } →
      nextSatisfies (exec .localRequestTake s) fun t =>
        oneCard s t (cardSerial card) r ∧ oneLine s t (ownStation s) l ∧
        t.ctu = { s.ctu with
          cards := t.ctu.cards, liability := s.ctu.liability + amount, turn := .line
          capLog := { s.ctu.capLog with entries := s.ctu.capLog.entries.map fun e =>
            if e.station = s.tp.config.station ∧ e.tag = origTag then { e with returned := e.returned + amount } else e } } ∧
        t.su = { s.su with tagSeq := nextTag s } ∧ t.tp = localAccepted s (nextTag s) 1 ∧
        oneRecord s t [.card (cardSerial card) r, .capLog t.ctu.capLog, .pairLive (ownStation s) l, .tagSeq (nextTag s)]
          [.placed { plainNotice (nextTag s) card .returned with
            amountA := amount, amountB := r.balance, day := liveDay s } amount] ∧
        t = { s with tp := t.tp, ctu := t.ctu, su := t.su, ps := t.ps, tu := { s.tu with live := t.tu.live } }) ∧
    (s.tp.hand = some (.localReq (.inquire card check asked)) → check = checkOf s (cardSerial card) →
      nextSatisfies (exec .localRequestTake s) fun t =>
        t.ctu = { s.ctu with turn := .line } ∧
        t.su = { s.su with tagSeq := nextTag s } ∧ t.tp = localAccepted s (nextTag s) 1 ∧
        oneRecord s t [.tagSeq (nextTag s)] [.placed { plainNotice (nextTag s) card .balance with
          cardState := reported s (cardSerial card), amountA := (cardOf s (cardSerial card)).balance
          amountB := available s (cardSerial card)
          result := tagResult s (cardSerial card) (ownStation s) asked } 0] ∧
        t = { s with tp := t.tp, ctu := t.ctu, su := t.su, ps := t.ps })) ∧
  ∀ (s : State) (tag : Tag) (amount i : Nat) (h : LiveHold) (r : CardRecord) (l : PairLine) (n : Notice)
    (q q' : List PostingRecord) (x : PostingRecord), takesLocal s = true → cardLaw s → Table.rises s.tu.live = true →
    (s.tp.hand = some (.localReq (.confirm tag amount)) → localHold s tag = some (i, h) → 1 ≤ amount → amount ≤ h.grant →
      r = { cardOf s h.serial with
        balance := (cardOf s h.serial).balance - amount, lastDay := liveDay s
        tags := joinTag (cardOf s h.serial).tags ⟨ownStation s, tag, .capture⟩ } →
      l = { liveLine s (ownStation s) with homeRed := countFigure (liveLine s (ownStation s)).homeRed amount } →
      nextSatisfies (exec .localRequestTake s) fun t =>
        oneHold s t i ⟨(holdAt s i).gen, none⟩ h.serial (heldOf s h.serial - h.grant) ∧ oneCard s t h.serial r ∧
        t.ctu.liability = s.ctu.liability - amount ∧
        t.ctu.capLog = addCapture s.ctu.capLog ⟨ownStation s, tag, h.serial, amount, 0, liveDay s⟩ ∧ t.ctu.turn = .line ∧
        oneLine s t (ownStation s) l ∧ t.tp = localAccepted s tag 0 ∧
        oneRecord s t [.card h.serial r, .capLog t.ctu.capLog, .pairLive (ownStation s) l]
          [.placed { plainNotice tag (cardNumber s h.serial) .captured with amountA := amount, day := liveDay s } amount] ∧
        t = { s with tp := t.tp, ctu := t.ctu, ps := t.ps, tu := { s.tu with live := t.tu.live } }) ∧
    (s.tp.hand = some (.localReq (.cancel tag)) → localHold s tag = some (i, h) →
      n = { plainNotice tag (cardNumber s h.serial) .cancelled with amountA := h.grant } →
      nextSatisfies (exec .localRequestTake s) fun t =>
        oneHold s t i ⟨(holdAt s i).gen, none⟩ h.serial (heldOf s h.serial - h.grant) ∧
        t.ctu = { s.ctu with holds := t.ctu.holds, held := t.ctu.held, turn := .line } ∧
        ((∀ y ∈ s.ps.queue, grantedIn tag y = false) → noRecord s t ∧ t.tp = { localAccepted s tag 0 with
          notices := s.tp.notices ++ [n], taken := s.tp.taken - 1, events := s.tp.events ||| 0x01 }) ∧
        (s.ps.queue = q ++ x :: q' → (∀ y ∈ q, grantedIn tag y = false) → grantedIn tag x = true →
          t.tp = localAccepted s tag 0 ∧ t.ps = { s.ps with
            queue := q ++ { x with deps := x.deps ++ [.placed n 0] } :: q', waiting := t.ps.waiting }) ∧
        t = { s with tp := t.tp, ctu := t.ctu, ps := t.ps }) ∧
    (s.tp.hand = some (.localReq (.confirm tag amount)) ∨ s.tp.hand = some (.localReq (.cancel tag)) →
      localHold s tag = none →
      nextSatisfies (exec .localRequestTake s) fun t =>
        t.tp = { s.tp with
          busy := false, hand := none
          response := { s.tp.response with result := .refused, reason := .noSlot, tag := 0, data := [] } } ∧
        noRecord s t ∧ t = { s with tp := t.tp, ctu := { s.ctu with turn := .line }, ps := t.ps })

/-- A HOLD that passes R44 with a grant: the lowest free entry with its generation advanced, the held total up by the grant,
HOLD-OK at once, no record, no card changed (R37, R42, R44, R45). -/
def Obligations.HoldGranted : Prop :=
  ∀ (s : State) (src : Station) (tag : Tag) (card : CardNo) (check : Check) (amount : Amount) (split : Bool)
    (rest : List RxFrame) (grant i : Nat), takesLine s = true → s.tp.station = .joined →
    s.lc.rx = ⟨src, .hold tag card check amount split⟩ :: rest → cardPassesChecks s src card check →
    1 ≤ amount.toNat → amount.toNat ≤ s.tp.config.ceiling → reported s (cardSerial card) = .active →
    repeatedHold s src tag (cardSerial card) = none → holdsOn s (cardSerial card) < 4 → freeHold s = some i →
    (amount.toNat ≤ available s (cardSerial card) ∧ grant = amount.toNat ∨
      0 < available s (cardSerial card) ∧ available s (cardSerial card) < amount.toNat ∧ split = true ∧
        grant = available s (cardSerial card)) →
    nextSatisfies (exec .hold s) fun t =>
      oneHold s t i ⟨(holdAt s i).gen + 1, some ⟨cardSerial card, src, tag, grant, s.tp.config.holdLife * 1000, 0⟩⟩
        (cardSerial card) (heldOf s (cardSerial card) + grant) ∧
      tookLine s t [(src, .holdOk tag (makeHoldId i ((holdAt s i).gen + 1)) (amount24 grant)
        (amount24 (available s (cardSerial card) - grant)) (decide (grant < amount.toNat)))] 0 ∧
      t.ctu = { s.ctu with holds := t.ctu.holds, held := t.ctu.held, turn := .till } ∧ noRecord s t ∧
      t = { s with ctu := t.ctu, lc := t.lc, ps := t.ps }

/-- A CLAIM of 1 to the grant on a hold live for it: balance down by the amount, held total by the grant, the entry free, the
capture logged and tagged, the liability total down, the sender's redemptions counted, one record of CARD, CAPLOG and
PAIR-LIVE with CLAIM-OK attached (R39, R47, R50, R57). A DROP of a live hold frees it alone (R49). The layout of the capture
log is the model's (log 22). -/
def Obligations.ClaimAndDrop : Prop :=
  ∀ (s : State) (src : Station) (tag : Tag) (card : CardNo) (id : HoldId) (amount : Amount) (retry : Bool)
    (rest : List RxFrame) (h : LiveHold) (r : CardRecord) (l : PairLine), takesLine s = true → s.tp.station = .joined →
    cardLaw s → Table.rises s.tu.live = true → isMember s src = true →
    (s.lc.rx = ⟨src, .claim tag card id amount retry⟩ :: rest → cardHome card = ownStation s →
      cardMall card = s.tp.config.mall → captureRepeat s (cardSerial card) src tag = false →
      claimHold s src tag card id = some h → 1 ≤ amount.toNat → amount.toNat ≤ h.grant →
      r = { cardOf s (cardSerial card) with
        balance := (cardOf s (cardSerial card)).balance - amount.toNat, lastDay := liveDay s
        tags := joinTag (cardOf s (cardSerial card)).tags ⟨src, tag, .capture⟩ } →
      l = { liveLine s src with homeRed :=
        ⟨(liveLine s src).homeRed.count + 1, narrow48 ((liveLine s src).homeRed.sum.toInt + amount.toNat)⟩ } →
      nextSatisfies (exec .claim s) fun t =>
        oneHold s t (holdIndex id) ⟨(holdAt s (holdIndex id)).gen, none⟩ (cardSerial card)
          (heldOf s (cardSerial card) - h.grant) ∧
        oneCard s t (cardSerial card) r ∧ t.ctu.liability = s.ctu.liability - amount.toNat ∧
        t.ctu.capLog = addCapture s.ctu.capLog ⟨src, tag, cardSerial card, amount.toNat, 0, liveDay s⟩ ∧
        oneLine s t src l ∧ tookLine s t (stallFor s src tag) 1 ∧
        oneRecord s t [.card (cardSerial card) r, .capLog t.ctu.capLog, .pairLive src l]
          [.answer src (.claimOk tag amount (liveDay s) false)] ∧
        t = { s with ctu := t.ctu, lc := t.lc, ps := t.ps, tu := { s.tu with live := t.tu.live } }) ∧
    (s.lc.rx = ⟨src, .drop tag id⟩ :: rest → namedHold s id src tag = some h →
      nextSatisfies (exec .drop s) fun t =>
        oneHold s t (holdIndex id) ⟨(holdAt s (holdIndex id)).gen, none⟩ h.serial (heldOf s h.serial - h.grant) ∧
        tookLine s t [] 0 ∧ noRecord s t ∧
        t.ctu = { s.ctu with holds := t.ctu.holds, held := t.ctu.held, turn := .till } ∧
        t = { s with ctu := t.ctu, lc := t.lc, ps := t.ps })

/-- A POST on an ACTIVE card that passes the check sequence takes up to the available amount; with something taken it is a
capture, with nothing its tag alone joins the card's list; POST-OK waits on the record (R39, R51, R52, R57). The layout of the capture
log is the model's (log 22). -/
def Obligations.PostTaken : Prop :=
  ∀ (s : State) (src : Station) (tag : Tag) (card : CardNo) (check : Check) (amount : Amount) (day : Day) (o : Origin)
    (rest : List RxFrame) (taken : Nat) (r : CardRecord) (l : PairLine), takesLine s = true → s.tp.station = .joined →
    s.lc.rx = ⟨src, .post tag card check amount day o⟩ :: rest → cardPassesChecks s src card check →
    captureRepeat s (cardSerial card) src tag = false → reported s (cardSerial card) = .active →
    Table.rises s.ctu.cards = true → Table.rises s.tu.live = true → 1 ≤ amount.toNat →
    taken = min amount.toNat (available s (cardSerial card)) →
    (0 < taken →
      r = { cardOf s (cardSerial card) with
        balance := (cardOf s (cardSerial card)).balance - taken, lastDay := liveDay s
        tags := joinTag (cardOf s (cardSerial card)).tags ⟨src, tag, .post⟩ } →
      l = { liveLine s src with homeRed :=
        ⟨(liveLine s src).homeRed.count + 1, narrow48 ((liveLine s src).homeRed.sum.toInt + taken)⟩ } →
      nextSatisfies (exec .post s) fun t =>
        oneCard s t (cardSerial card) r ∧ t.ctu.liability = s.ctu.liability - taken ∧
        t.ctu.capLog = addCapture s.ctu.capLog ⟨src, tag, cardSerial card, taken, 0, liveDay s⟩ ∧ oneLine s t src l ∧
        t.ctu.holds = s.ctu.holds ∧ t.ctu.held = s.ctu.held ∧ tookLine s t (stallFor s src tag) 1 ∧
        oneRecord s t [.card (cardSerial card) r, .capLog t.ctu.capLog, .pairLive src l]
          [.answer src (.postOk tag (amount24 taken) (amount24 (amount.toNat - taken))
            (if taken = amount.toNat then .none else .funds) (liveDay s) false)] ∧
        t = { s with ctu := t.ctu, lc := t.lc, ps := t.ps, tu := { s.tu with live := t.tu.live } }) ∧
    (taken = 0 →
      r = { cardOf s (cardSerial card) with tags := joinTag (cardOf s (cardSerial card)).tags ⟨src, tag, .post⟩ } →
      nextSatisfies (exec .post s) fun t =>
        oneCard s t (cardSerial card) r ∧ t.ctu.liability = s.ctu.liability ∧
        t.ctu = { s.ctu with cards := t.ctu.cards, turn := .till } ∧ tookLine s t (stallFor s src tag) 1 ∧
        oneRecord s t [.card (cardSerial card) r]
          [.answer src (.postOk tag 0 amount .funds (liveDay s) false)] ∧
        t = { s with ctu := t.ctu, lc := t.lc, ps := t.ps })

/-- A LOAD and a RETURN applied at their takes: balance and liability total up by the amount, the tag joined, the sender's line
counted, for RETURN the capture's returned-so-far raised, one record with the answer attached (R53 to R55, R57). -/
def Obligations.LoadAndReturnTaken : Prop :=
  ∀ (s : State) (src : Station) (tag origTag : Tag) (card : CardNo) (check : Check) (amount : Amount) (rest : List RxFrame)
    (c : CapEntry) (r : CardRecord) (l : PairLine), takesLine s = true → s.tp.station = .joined →
    cardPassesChecks s src card check → Table.rises s.ctu.cards = true → Table.rises s.tu.live = true →
    1 ≤ amount.toNat → (cardOf s (cardSerial card)).balance + amount.toNat ≤ s.tp.config.ceiling →
    (s.lc.rx = ⟨src, .load tag card check amount⟩ :: rest → kindRepeat s (cardSerial card) src tag .load = false →
      reported s (cardSerial card) = .active →
      r = { cardOf s (cardSerial card) with
        balance := (cardOf s (cardSerial card)).balance + amount.toNat, lastDay := liveDay s
        tags := joinTag (cardOf s (cardSerial card)).tags ⟨src, tag, .load⟩ } →
      l = { liveLine s src with homeLoad :=
        ⟨(liveLine s src).homeLoad.count + 1, narrow48 ((liveLine s src).homeLoad.sum.toInt + amount.toNat)⟩ } →
      nextSatisfies (exec .loadFrame s) fun t =>
        oneCard s t (cardSerial card) r ∧ oneLine s t src l ∧ tookLine s t (stallFor s src tag) 1 ∧
        t.ctu = { s.ctu with cards := t.ctu.cards, liability := s.ctu.liability + amount.toNat, turn := .till } ∧
        oneRecord s t [.card (cardSerial card) r, .pairLive src l]
          [.answer src (.loadOk tag (amount24 r.balance) (liveDay s) false)] ∧
        t = { s with ctu := t.ctu, lc := t.lc, ps := t.ps, tu := { s.tu with live := t.tu.live } }) ∧
    (s.lc.rx = ⟨src, .ret tag card origTag amount⟩ :: rest → kindRepeat s (cardSerial card) src tag .ret = false →
      findCapture s src origTag = some c → c.serial = cardSerial card → c.returned + amount.toNat ≤ c.amount →
      reported s (cardSerial card) ≠ .expired →
      r = { cardOf s (cardSerial card) with
        balance := (cardOf s (cardSerial card)).balance + amount.toNat, lastDay := liveDay s
        tags := joinTag (cardOf s (cardSerial card)).tags ⟨src, tag, .ret⟩ } →
      l = { liveLine s src with homeRet :=
        ⟨(liveLine s src).homeRet.count + 1, narrow48 ((liveLine s src).homeRet.sum.toInt + amount.toNat)⟩ } →
      nextSatisfies (exec .returnFrame s) fun t =>
        oneCard s t (cardSerial card) r ∧ oneLine s t src l ∧ tookLine s t (stallFor s src tag) 1 ∧
        t.ctu = { s.ctu with
          cards := t.ctu.cards, liability := s.ctu.liability + amount.toNat, turn := .till
          capLog := { s.ctu.capLog with entries := s.ctu.capLog.entries.map fun e =>
            if e.station = src ∧ e.tag = origTag then { e with returned := e.returned + amount.toNat } else e } } ∧
        oneRecord s t [.card (cardSerial card) r, .capLog t.ctu.capLog, .pairLive src l]
          [.answer src (.returnOk tag (amount24 r.balance) (liveDay s))] ∧
        t = { s with ctu := t.ctu, lc := t.lc, ps := t.ps, tu := { s.tu with live := t.tu.live } })

/-- An INQUIRE that passes the check sequence changes no card; its BALANCE is sent at once when no record stands, else it follows
the youngest record (R41, R56). -/
def Obligations.InquireTaken : Prop :=
  ∀ (s : State) (src : Station) (tag : Tag) (card : CardNo) (check : Check) (asked : Option Tag) (rest : List RxFrame)
    (b : Body), takesLine s = true → s.tp.station = .joined → s.lc.rx = ⟨src, .inquire tag card check asked⟩ :: rest →
    cardPassesChecks s src card check →
    b = .balance tag (reported s (cardSerial card)) (amount24 (cardOf s (cardSerial card)).balance)
      (amount24 (available s (cardSerial card))) (tagResult s (cardSerial card) src asked) →
    nextSatisfies (exec .inquireFrame s) fun t =>
      t.ctu = { s.ctu with turn := .till } ∧ t = { s with ctu := t.ctu, lc := t.lc, ps := t.ps } ∧
      (s.ps.queue = [] → tookLine s t [(src, b)] 0 ∧ noRecord s t) ∧
      (∀ q r, s.ps.queue = q ++ [r] → tookLine s t [] 1 ∧
        t.ps = { s.ps with queue := q ++ [{ r with deps := r.deps ++ [.answer src b] }], waiting := t.ps.waiting })

/-! ### Slots and the Deferred Queue (spec 04, 05) -/

/-- SLOT_OPENING: the lowest FREE slot, the advanced tag, a reserved class-2 place, one record of TAGSEQ with the request frame
attached, ACCEPTED; SLOTS without a FREE slot, LINE-BUSY without a class-2 place (R65, R68). A REDEEM on a line that is SILENT or
STUCK needs no class-2 place, sends no frame, and takes its no-answer event at the take: without offline permitted it ends with
NO-ANSWER (R68, R72). -/
def Obligations.SlotOpened : Prop :=
  ∀ (s : State) (r : OpenReq) (n : Nat), granted s = some .opening → s.tp.hand = some (.opening r) →
    (r.kind ≠ .redeem ∨ (s.lc.line ≠ .silent ∧ s.lc.line ≠ .stuck) →
    (freeSlotNumber s = some n → 1 ≤ txFree s .c2 →
      nextSatisfies (exec .slotOpening s) fun t =>
        oneSlot s t n (some (newSlot (nextTag s) r)) ∧
        t.su = { s.su with slots := t.su.slots, tagSeq := nextTag s } ∧
        t.lc = { s.lc with tx2 := { s.lc.tx2 with reserved := s.lc.tx2.reserved + 1 } } ∧
        t.tp = { s.tp with
          busy := false, hand := none
          response := { s.tp.response with result := .accepted, reason := .none, tag := nextTag s, data := [] } } ∧
        oneRecord s t [.tagSeq (nextTag s)]
          [.slotFrame n (nextTag s) (cardHome r.card) (requestBody (newSlot (nextTag s) r))] ∧
        t = { s with tp := t.tp, su := t.su, lc := t.lc, ps := t.ps }) ∧
    (freeSlotNumber s = none ∨ txFree s .c2 = 0 →
      nextSatisfies (exec .slotOpening s) fun t => onlyPort s t ∧ t.tp = { s.tp with
        busy := false, hand := none
        response := { s.tp.response with
          result := .refused, reason := if freeSlotNumber s = none then .slots else .lineBusy, tag := 0, data := [] } })) ∧
    (r.kind = .redeem → r.offline = false → s.lc.line = .silent ∨ s.lc.line = .stuck → freeSlotNumber s = some n →
      nextSatisfies (exec .slotOpening s) fun t =>
        oneSlot s t n (some (notifying (newSlot (nextTag s) r))) ∧
        t.su = { s.su with slots := t.su.slots, tagSeq := nextTag s, due := s.su.due ++
          [⟨plainNotice (nextTag s) r.card .noAnswer, some n, true⟩] } ∧
        t.tp = { s.tp with
          busy := false, hand := none
          response := { s.tp.response with result := .accepted, reason := .none, tag := nextTag s, data := [] } } ∧
        oneRecord s t [.tagSeq (nextTag s)] [] ∧ t = { s with tp := t.tp, su := t.su, ps := t.ps })

/-- A RETURN against a WAITING POST of attempts 0: the entry is reduced or removed, the exposure of an OFFLINE entry falls, one
record of DEFERRED and TAGSEQ with RETURNED attached in its taken place (R89, R100, R101). That RETURNED carries the live day of
the take is an inference (log 33). -/
def Obligations.RefundTaken : Prop :=
  ∀ (s : State) (card : CardNo) (origTag : Tag) (amount : Nat) (e : DeferredEntry) (a : DeferredArea),
    granted s = some .dqReturn → s.tp.hand = some (.dqReturn card origTag amount) → entryTagged s origTag = some e →
    card = e.card → e.kind = .post → e.sent = false → e.attempts = 0 → amount ≤ e.amount → 1 ≤ sparePlaces s →
    a = ⟨if e.amount = amount then s.dq.area.entries.filter fun x => x.tag != origTag
        else s.dq.area.entries.map fun x => if x.tag = origTag then { x with amount := x.amount - amount } else x,
      if e.origin = .offline then s.dq.area.exposure - amount else s.dq.area.exposure⟩ →
    nextSatisfies (exec .dqReturnTake s) fun t =>
      t.dq = { s.dq with area := a } ∧ t.su = { s.su with tagSeq := nextTag s } ∧
      t.tp = { s.tp with
        busy := false, hand := none, taken := s.tp.taken + 1
        response := { s.tp.response with result := .accepted, reason := .none, tag := nextTag s, data := [] } } ∧
      oneRecord s t [.deferred a, .tagSeq (nextTag s)]
        [.placed { plainNotice (nextTag s) card .returned with amountA := amount, day := liveDay s } amount] ∧
      t = { s with tp := t.tp, su := t.su, dq := t.dq, ps := t.ps }

/-- The steps of a slot: the offline decision under its three limits (R73), the deferred entries of a CLAIM answered LATE or
UNKNOWN and of one not answered (R76), the filing of the live day, of the closing day, and of another day, which sets LATE-FILING,
marks the closing pair DISPUTED, and restarts the computation in COMPUTING and SETTLED when that changes a member's mark (R82,
R83, R150), the entry of a due notice (R84, R178). -/
def Obligations.SlotSteps : Prop :=
  (∀ (s : State) (n : Fin 32) (sl : Slot) (e : DeferredEntry), slotAt s n.val = some sl → granted s = some (.slot n.val) →
    (sl.pending = some .offline →
      sl.amount + cardOffline s.dq.area.entries sl.card ≤ s.tp.config.cardLimit →
      s.dq.area.exposure + sl.amount ≤ s.tp.config.stationCap → s.dq.area.entries.length < 64 →
      e = ⟨.post, .offline, sl.card, sl.check, sl.amount, sl.tag, none, liveDay s, false, 0⟩ →
      nextSatisfies (exec (.offlineDecision n) s) fun t =>
        t.dq.area = ⟨s.dq.area.entries ++ [e], s.dq.area.exposure + sl.amount⟩ ∧
        oneSlot s t n.val (some (notifying sl)) ∧ oneRecord s t [.deferred t.dq.area]
          [.slotNotice n.val { plainNotice sl.tag sl.card .offlineAccepted with amountA := sl.amount }] ∧
        t = { s with su := { s.su with slots := t.su.slots }, dq := { s.dq with area := t.dq.area }, ps := t.ps }) ∧
    (sl.pending = some .offline →
      s.tp.config.cardLimit < sl.amount + cardOffline s.dq.area.entries sl.card ∨
        s.tp.config.stationCap < s.dq.area.exposure + sl.amount ∨ 64 ≤ s.dq.area.entries.length →
      nextSatisfies (exec (.offlineDecision n) s) fun t =>
        oneSlot s t n.val (some (notifying sl)) ∧ noRecord s t ∧
        t = { s with ps := t.ps, su := { s.su with slots := t.su.slots, due := s.su.due ++
          [⟨{ plainNotice sl.tag sl.card .noAnswer with
            reason := if s.tp.config.cardLimit < sl.amount + cardOffline s.dq.area.entries sl.card then .cardLimit
              else if s.tp.config.stationCap < s.dq.area.exposure + sl.amount then .stationCap else .queueFull },
            some n.val, true⟩] } }) ∧
    (sl.pending = some .deferLate ∧
        e = ⟨.post, .late, sl.card, sl.check, sl.amount, sl.tag, none, liveDay s, false, 0⟩ ∨
      sl.pending = some .deferRetry ∧
        e = ⟨.claimRetry, .none, sl.card, sl.check, sl.amount, sl.tag, sl.hold.map (·.1), liveDay s, false, 0⟩ →
      nextSatisfies (exec (.slotDeferredEntry n) s) fun t =>
        t.dq.area = ⟨s.dq.area.entries ++ [e], s.dq.area.exposure⟩ ∧
        oneSlot s t n.val (some (notifying sl)) ∧ oneRecord s t [.deferred t.dq.area]
          [.slotNotice n.val { plainNotice sl.tag sl.card .captureDeferred with amountA := sl.amount }] ∧
        t = { s with su := { s.su with slots := t.su.slots }, dq := { s.dq with area := t.dq.area }, ps := t.ps })) ∧
  (∀ (s : State) (n : Fin 32) (sl : Slot) (pos : FilePos) (amount : Nat) (od : Option Day) (day : Day) (notice : Notice)
    (home : Station) (l c : PairLine), slotAt s n.val = some sl → granted s = some (.slot n.val) →
    sl.pending = some (.file pos amount od notice) → day = od.getD (liveDay s) → home = cardHome sl.card →
    Table.rises s.tu.live = true → Table.rises s.tu.closing = true → Table.rises s.tu.marks = true →
    l = countActor (liveLine s home) pos amount → c = countActor (closingLine s home) pos amount →
    nextSatisfies (exec (.actorFiling n) s) fun t =>
      oneSlot s t n.val (some { sl with pending := none }) ∧
      t = { s with tp := t.tp, su := { s.su with slots := t.su.slots }, tu := t.tu, ps := t.ps } ∧
      (s.tu.liveDay = some day → oneLine s t home l ∧
        oneRecord s t [.pairLive home l] [.slotNotice n.val { notice with day := day }] ∧
        t.tp = s.tp ∧ t.tu = { s.tu with live := t.tu.live }) ∧
      (s.tu.liveDay ≠ some day → s.tu.round.day = some day → inSet s.tu.round.sent home = false →
        closingLine t home = c ∧ (∀ x, x ≠ home → closingLine t x = closingLine s x) ∧
        oneRecord s t [.pairClosing home c (markOf s home) none] [.slotNotice n.val { notice with day := day }] ∧
        t.tp = s.tp ∧ t.tu = { s.tu with closing := t.tu.closing }) ∧
      (s.tu.liveDay ≠ some day → s.tu.round.day ≠ some day ∨ inSet s.tu.round.sent home = true →
        oneLine s t home l ∧ t.tp = { s.tp with events := s.tp.events ||| 0x40 } ∧
        (s.tu.round.day = none → t.tu = { s.tu with live := t.tu.live } ∧
          oneRecord s t [.pairLive home l] [.slotNotice n.val { notice with day := day }]) ∧
        (s.tu.round.day ≠ none → markOf t home = .disputed ∧ (∀ x, x ≠ home → markOf t x = markOf s x) ∧
          oneRecord s t [.pairLive home l, .pairClosing home (closingLine s home) .disputed none]
            [.slotNotice n.val { notice with day := day }] ∧
          t.tu = if markOf s home ≠ .disputed ∧ isMember s home = true ∧
              (s.tu.state = .computing ∨ s.tu.state = .settled) then
            { s.tu with
              live := t.tu.live, marks := t.tu.marks, revised := true, state := .computing, result := none
              computing := some (computeInputs t) }
          else { s.tu with live := t.tu.live, marks := t.tu.marks }))) ∧
  ∀ (s : State) (d : DueNotice) (rest : List DueNotice), s.su.due = d :: rest → 1 ≤ freePlaces s → isOpen s = true →
    nextSatisfies (exec .noticeEntry s) fun t =>
      t.tp = { s.tp with notices := s.tp.notices ++ [d.notice], events := s.tp.events ||| 0x01 } ∧
      (∀ n, d.slot = some n → d.terminal = true → Table.rises s.su.slots = true → oneSlot s t n none) ∧
      (d.slot = none ∨ d.terminal = false → t.su.slots = s.su.slots) ∧
      t.su = { s.su with slots := t.su.slots, due := rest } ∧ noRecord s t ∧
      t = { s with tp := t.tp, su := t.su, ps := t.ps }

/-- The forwarder's choice marks the entry SENT, reserves its class-3 place and attaches its frame to the record (R92, R93); the
pending return to WAITING raises the attempts and is one record (R94, R95, R99). -/
def Obligations.ForwarderAndPendingStep : Prop :=
  ∀ (s : State) (e : DeferredEntry) (a : DeferredArea),
    (granted s = some .forwarder → eligible s = some e →
      a = { s.dq.area with entries := s.dq.area.entries.map fun x => if x.tag = e.tag then { x with sent := true } else x } →
      nextSatisfies (exec .forwarderChoice s) fun t =>
        t.dq = { s.dq with area := a } ∧
        t.lc = { s.lc with tx3 := { s.lc.tx3 with reserved := s.lc.tx3.reserved + 1 } } ∧
        oneRecord s t [.deferred a] [.dqFrame (cardHome e.card) (match e.kind with
          | .post => .post e.tag e.card e.check (amount24 e.amount) e.day e.origin
          | .claimRetry => .claim e.tag e.card (e.holdId.getD 0) (amount24 e.amount) true)] ∧
        t = { s with dq := t.dq, lc := t.lc, ps := t.ps }) ∧
    (granted s = some .dqPending → s.dq.pending = some .backToWaiting → sentEntry s = some e →
      a = { s.dq.area with entries := s.dq.area.entries.map fun x =>
        if x.sent then { x with sent := false, attempts := min (x.attempts + 1) 255 } else x } →
      nextSatisfies (exec .dqPendingStep s) fun t =>
        t.dq = { s.dq with area := a, pending := none } ∧ oneRecord s t [.deferred a] [] ∧
        t = { s with dq := t.dq, ps := t.ps })

/-! ### Frames received (spec 06) -/

/-- A complete frame of another station for this one that carries a request enters the receive queue; with 16 requests standing
it is discarded and OVERRUN set; a frame that fails CRC or R9 only ends; an over-long body sends the receiver searching (R117,
R119, R121). -/
def Obligations.RequestReceived : Prop :=
  ∀ (s : State) (f : RawFrame) (b : Body), hearing s = true → s.lc.line ≠ .stuck →
    (takenBody f = some b → isRequest b = true → f.src ≠ ownStation s → f.dst = ownStation s →
      nextSatisfies (exec (.receiveQueueEntry f) s) fun t =>
        (s.lc.rx.length < 16 → t.lc = { s.lc with receiver := .counting, rx := s.lc.rx ++ [⟨f.src, b⟩] } ∧ t.tp = s.tp) ∧
        (16 ≤ s.lc.rx.length → t.lc = { s.lc with receiver := .counting } ∧
          t.tp = { s.tp with events := s.tp.events ||| 0x10 }) ∧ noRecord s t ∧
        t = { s with tp := t.tp, lc := t.lc, ps := t.ps }) ∧
    (takenBody f = none →
      exec (.receiveQueueEntry f) s = .next { s with lc := { s.lc with receiver := .counting } }) ∧
    exec .bodyLengthDiscard s = .next { s with lc := { s.lc with receiver := .searching } }

/-- What a REDEEM slot takes: HOLD-OK, HOLD-NO (DEGRADED with offline permitted is the offline decision), CLAIM-OK, CLAIM-NO (LATE
and UNKNOWN defer the capture, DEGRADED defers the claim, another reason ends the slot with a DROP), and the STALL of a slot that
waits (R70 to R72, R75, R76, R81, R82). A step whose write-queue place is free is made with its cause, else it is pending; that
it is made at that event is an inference (log 14), as is a STALL's setting of a reply timer that does not run yet (log 32). -/
def Obligations.RedeemAnswers : Prop :=
  ∀ (s : State) (src dst : Station) (tag : Tag) (id : HoldId) (grant avail amount : Amount) (p dup : Bool) (r : Reason)
    (day : Day) (n : Nat) (sl : Slot),
    (hears s src dst (.holdOk tag id grant avail p) → slotTaking s src (.holdOk tag id grant avail p) = some (n, sl) →
      nextSatisfies (exec (.holdOk src dst tag id grant avail p) s) fun t =>
        oneSlot s t n (some { sl with
          state := .held, hold := some (id, grant.toNat), reply := none
          holdTimer := some (s.tp.config.holdLife * 1000 - s.tp.config.window) }) ∧ noRecord s t ∧
        t = { s with lc := countingLc s, ps := t.ps, su := { s.su with slots := t.su.slots, due := s.su.due ++
          [⟨{ plainNotice sl.tag sl.card .granted with
            amountA := grant.toNat, amountB := avail.toNat, isPartial := p }, some n, false⟩] } }) ∧
    (hears s src dst (.holdNo tag r avail) → slotTaking s src (.holdNo tag r avail) = some (n, sl) →
      nextSatisfies (exec (.holdNo src dst tag r avail) s) fun t =>
        (r ≠ .degraded ∨ sl.offline = false → oneSlot s t n (some (notifying sl)) ∧ noRecord s t ∧
          t = { s with lc := countingLc s, ps := t.ps, su := { s.su with slots := t.su.slots, due := s.su.due ++
            [⟨{ plainNotice sl.tag sl.card .refused with
              reason := r, amountA := if r = .funds then avail.toNat else 0 }, some n, true⟩] } }) ∧
        (r = .degraded → sl.offline = true → offlineOutcome s t (countingLc s) n sl)) ∧
    (hears s src dst (.claimOk tag amount day dup) → slotTaking s src (.claimOk tag amount day dup) = some (n, sl) →
      nextSatisfies (exec (.claimOk src dst tag amount day dup) s) fun t =>
        filingOnly s t n sl ∧ filingOutcome s t n sl .redemption amount.toNat (some day)
          { plainNotice sl.tag sl.card .captured with amountA := amount.toNat, day := day }) ∧
    (hears s src dst (.claimNo tag r) → slotTaking s src (.claimNo tag r) = some (n, sl) →
      nextSatisfies (exec (.claimNo src dst tag r) s) fun t =>
        (r ≠ .late → r ≠ .unknown → r ≠ .degraded → oneSlot s t n (some (notifying sl)) ∧ noRecord s t ∧
          t = { s with
            ps := t.ps
            su := { s.su with slots := t.su.slots, due := s.su.due ++
              [⟨{ plainNotice sl.tag sl.card .refused with reason := r }, some n, true⟩] }
            lc := { countingLc s with tx2 := { s.lc.tx2 with frames := s.lc.tx2.frames ++
              (match sl.hold with
               | some h => if 1 ≤ txFree s .c2 then [⟨cardHome sl.card, .drop sl.tag h.1, 0, 0⟩] else []
               | none => []) } } }) ∧
        (r = .late ∨ r = .unknown → entryOutcome s t (countingLc s) n sl .deferLate
          ⟨.post, .late, sl.card, sl.check, sl.amount, sl.tag, none, liveDay s, false, 0⟩) ∧
        (r = .degraded → entryOutcome s t (countingLc s) n sl .deferRetry
          ⟨.claimRetry, .none, sl.card, sl.check, sl.amount, sl.tag, sl.hold.map (·.1), liveDay s, false, 0⟩)) ∧
    (hears s src dst (.stall tag) → slotTaking s src (.stall tag) = some (n, sl) → s.tp.config.waitMode ≤ 2 →
      nextSatisfies (exec (.stall src dst tag) s) fun t =>
        oneSlot s t n (some
          (if (s.tp.config.waitMode = 1 ∧ sl.stalls < 4) ∨ (s.tp.config.waitMode = 2 ∧ sl.stalls = 0) then
            { sl with reply := some s.tp.config.window, stalls := sl.stalls + 1 }
          else sl)) ∧ noRecord s t ∧
        t = { s with lc := countingLc s, ps := t.ps, su := { s.su with slots := t.su.slots } })

/-- What LOAD, RETURN and INQUIRE slots take: a filing for LOAD-OK, RETURN-OK and a BALANCE that found the LOAD; else the notice
of R78, R79 and R80 at once (R71, R78 to R80, R82). A filing whose write-queue place is free is made with its cause, else it is
pending; that it is made at that event is an inference (log 14). -/
def Obligations.OtherAnswers : Prop :=
  ∀ (s : State) (src dst : Station) (tag : Tag) (bal avail : Amount) (dup : Bool) (r : Reason) (c : CardState)
    (q : TagResult) (day : Day) (n : Nat) (sl : Slot),
    (hears s src dst (.loadOk tag bal day dup) → slotTaking s src (.loadOk tag bal day dup) = some (n, sl) →
      nextSatisfies (exec (.loadOk src dst tag bal day dup) s) fun t => filingOnly s t n sl ∧
        filingOutcome s t n sl .load sl.amount (some day)
          { plainNotice sl.tag sl.card .loaded with amountA := sl.amount, amountB := bal.toNat, day := day }) ∧
    (hears s src dst (.returnOk tag bal day) → slotTaking s src (.returnOk tag bal day) = some (n, sl) →
      nextSatisfies (exec (.returnOk src dst tag bal day) s) fun t => filingOnly s t n sl ∧
        filingOutcome s t n sl .ret sl.amount (some day)
          { plainNotice sl.tag sl.card .returned with amountA := sl.amount, amountB := bal.toNat, day := day }) ∧
    (hears s src dst (.balance tag c bal avail q) → slotTaking s src (.balance tag c bal avail q) = some (n, sl) →
      nextSatisfies (exec (.balance src dst tag c bal avail q) s) fun t =>
        (sl.kind = .load ∧ q = .foundLoad → filingOnly s t n sl ∧ filingOutcome s t n sl .load sl.amount none
          { plainNotice sl.tag sl.card .loaded with amountA := sl.amount, amountB := bal.toNat }) ∧
        (sl.kind = .load ∧ q ≠ .foundLoad →
          endedSlot s t n sl { plainNotice sl.tag sl.card .notLoaded with amountA := sl.amount }) ∧
        (sl.kind ≠ .load → endedSlot s t n sl { plainNotice sl.tag sl.card .balance with
          cardState := c, amountA := bal.toNat, amountB := avail.toNat, result := q })) ∧
    (∀ x ∈ [(Body.loadNo tag r, Instr.loadNo src dst tag r), (.returnNo tag r, .returnNo src dst tag r)],
      hears s src dst x.1 → slotTaking s src x.1 = some (n, sl) →
      nextSatisfies (exec x.2 s) fun t => endedSlot s t n sl { plainNotice sl.tag sl.card .refused with reason := r }) ∧
    (hears s src dst (.inquireNo tag r) → slotTaking s src (.inquireNo tag r) = some (n, sl) →
      nextSatisfies (exec (.inquireNo src dst tag r) s) fun t => endedSlot s t n sl
        (if sl.kind = .load then { plainNotice sl.tag sl.card .inDoubt with amountA := sl.amount }
          else { plainNotice sl.tag sl.card .refused with reason := r }))

/-- What the SENT entry of the Deferred Queue takes: POST-OK and CLAIM-OK remove it and file the amount taken for the apply day,
a POST-OK short with a LOSS notice, POST-NO and a CLAIM-NO of DEGRADED send it back with the longest back-off, another CLAIM-NO
converts it in place (R82, R89, R91, R95 to R99); a STALL restarts its window by the wait mode (R94). That the step is made with
its cause where a place is free is an inference (log 14), as is a STALL's setting of a timer that does not run yet (log 32). -/
def Obligations.DeferredAnswers : Prop :=
  ∀ (s : State) (src dst : Station) (tag : Tag) (amount short : Amount) (dup : Bool) (r : Reason) (day : Day)
    (e : DeferredEntry) (gone : DeferredArea), isJoined s = true → Table.rises s.dq.backoff = true →
    gone = ⟨s.dq.area.entries.filter fun x => !x.sent,
      if e.origin = .offline then s.dq.area.exposure - e.amount else s.dq.area.exposure⟩ →
    (hears s src dst (.postOk tag amount short r day dup) → slotTaking s src (.postOk tag amount short r day dup) = none →
      dqTaking s src (.postOk tag amount short r day dup) = some e →
      nextSatisfies (exec (.postOk src dst tag amount short r day dup) s) fun t =>
        oneBackoff s t (cardHome e.card) ⟨0, none⟩ ∧ dqOnly s t ∧
        dqOutcome s t (countingLc s)
          (.remove amount.toNat day (if 0 < short.toNat then some { plainNotice e.tag e.card .loss with
            reason := r, amountA := e.amount, amountB := amount.toNat, day := day } else none)) gone
          (takenFiling s (cardHome e.card) amount.toNat day)
          (if 0 < short.toNat then [.loss { plainNotice e.tag e.card .loss with
            reason := r, amountA := e.amount, amountB := amount.toNat, day := day }] else [])) ∧
    (hears s src dst (.claimOk tag amount day dup) → slotTaking s src (.claimOk tag amount day dup) = none →
      dqTaking s src (.claimOk tag amount day dup) = some e →
      nextSatisfies (exec (.claimOk src dst tag amount day dup) s) fun t =>
        oneBackoff s t (cardHome e.card) ⟨0, none⟩ ∧ dqOnly s t ∧
        dqOutcome s t (countingLc s) (.remove amount.toNat day none) gone
          (takenFiling s (cardHome e.card) amount.toNat day) []) ∧
    (∀ x ∈ [(Body.postNo tag r, Instr.postNo src dst tag r), (.claimNo tag .degraded, .claimNo src dst tag .degraded)],
      hears s src dst x.1 → slotTaking s src x.1 = none → dqTaking s src x.1 = some e →
      nextSatisfies (exec x.2 s) fun t =>
        oneBackoff s t (cardHome e.card) ⟨4, some 80000⟩ ∧ dqOnly s t ∧ t.tu = s.tu ∧ t.tp = s.tp ∧
        dqOutcome s t (countingLc s) .backToWaiting { s.dq.area with entries := s.dq.area.entries.map fun x =>
          if x.sent then { x with sent := false, attempts := min (x.attempts + 1) 255 } else x } (s, []) []) ∧
    (hears s src dst (.claimNo tag r) → slotTaking s src (.claimNo tag r) = none → dqTaking s src (.claimNo tag r) = some e →
      r ≠ .degraded →
      nextSatisfies (exec (.claimNo src dst tag r) s) fun t =>
        oneBackoff s t (cardHome e.card) ⟨0, none⟩ ∧ dqOnly s t ∧ t.tu = s.tu ∧ t.tp = s.tp ∧
        dqOutcome s t (countingLc s) .convert { s.dq.area with entries := s.dq.area.entries.map fun x =>
          if x.sent then { x with
            kind := .post, origin := .late, holdId := none, sent := false, attempts := min (x.attempts + 1) 255 }
          else x } (s, []) []) ∧
    (hears s src dst (.stall tag) → slotTaking s src (.stall tag) = none → dqTaking s src (.stall tag) = some e →
      s.tp.config.waitMode ≤ 2 →
      nextSatisfies (exec (.stall src dst tag) s) fun t => noRecord s t ∧
        t = { s with
          lc := countingLc s, ps := t.ps
          dq := if (s.tp.config.waitMode = 1 ∧ s.dq.stalls < 4) ∨ (s.tp.config.waitMode = 2 ∧ s.dq.stalls = 0) then
              { s.dq with reply := some s.tp.config.window, stalls := s.dq.stalls + 1 }
            else s.dq })

/-- A TALLY-OPEN of a member for the live day becomes the pending opening, cutting a round in QUIET or TALLYING short; for
another day it sets DAY-SKEW alone (R142, R151). A TALLY of the closing day joins the inbound list, last, in place of one waiting
from its source; another is discarded (R146). That one which replaces another stands last is an inference (log 19). -/
def Obligations.TallyArrivals : Prop :=
  ∀ (s : State) (src dst : Station) (day : Day) (block : PairLine), s.tp.station = .joined → isMember s src = true →
    (hears s src dst (.tallyOpen day) → nextSatisfies (exec (.tallyOpen src dst day) s) fun t => noRecord s t ∧
      (s.tu.liveDay ≠ some day → t = { s with
        tp := { s.tp with events := s.tp.events ||| 0x20 }, lc := countingLc s, ps := t.ps }) ∧
      (s.tu.liveDay = some day → t = { s with lc := countingLc s, ps := t.ps, tu := t.tu } ∧
        ((s.tu.state = .quiet ∨ s.tu.state = .tallying) → t.tu = { s.tu with
          opening := some (s.tu.opening.getD ⟨day, false, false⟩), cutShort := true, quiet := none, tally := none }) ∧
        (s.tu.state ≠ .quiet ∧ s.tu.state ≠ .tallying → t.tu = { s.tu with
          opening := some (s.tu.opening.getD ⟨day, false, false⟩) }))) ∧
    (hears s src dst (.tally day block) → nextSatisfies (exec (.tally src dst day block) s) fun t => noRecord s t ∧
      t = { s with lc := countingLc s, ps := t.ps, tu := { s.tu with inbound := t.tu.inbound } } ∧
      (s.tu.round.day ≠ some day → t.tu.inbound = s.tu.inbound) ∧
      (s.tu.round.day = some day →
        t.tu.inbound = (s.tu.inbound.filter fun x => decide (x.src ≠ src)) ++ [⟨src, block⟩]))

/-- The events of the line: a frame starts from the lowest class that holds one, loses arbitration and stays with its loss count
raised, is cut by a clash, at its second clash on an ACTIVE line with the line SILENT and LINE set, is sent whole; a frame of the
station's own number heard on an ACTIVE line makes it SILENT (R118); the idle gap; a start symbol; the stuck timer (R69, R105 to
R108, R110 to R115). That a frame withdrawn under way stays queued so too is an inference (log 34). -/
def Obligations.LineEvents : Prop :=
  ∀ (s : State) (c : TxClass) (f : TxFrame) (rest : List TxFrame),
    (isUp s = true → s.lc.line = .active → s.lc.receiver = .idle → s.lc.sending = none → (txOf s.lc c).frames ≠ [] →
      (∀ d, (classBits d).toNat < (classBits c).toNat → (txOf s.lc d).frames = []) →
      exec .frameStart s = .next { s with lc := { s.lc with sending := some c, receiver := .following } }) ∧
    (s.lc.sending = some c → (txOf s.lc c).frames = f :: rest →
      exec .arbitrationLost s = .next { s with
        lc := setTx { s.lc with sending := none } c
          { txOf s.lc c with frames := ({ f with loss := min (f.loss + 1) 8 } : TxFrame) :: rest } }) ∧
    (s.lc.sending = some c → (txOf s.lc c).frames = f :: rest → f.clash = 0 →
      exec .bodyClash s = .next { s with
        lc := setTx { s.lc with sending := none, receiver := .searching } c
          { txOf s.lc c with frames := ({ f with clash := 1 } : TxFrame) :: rest } }) ∧
    (s.lc.sending = some c → (txOf s.lc c).frames = f :: rest → f.clash = 1 → s.lc.line = .active →
      nextSatisfies (exec .bodyClash s) fun t => t.lc.line = .silent ∧ t.lc.receiver = .searching ∧ t.lc.sending = none ∧
        (s.su.slots = [] → noRecord s t ∧ t = { s with
          tp := { s.tp with events := s.tp.events ||| 0x08 }, ps := t.ps
          lc := setTx { s.lc with line := .silent, receiver := .searching, sending := none } c
            { txOf s.lc c with frames := ({ f with clash := 1 } : TxFrame) :: rest } })) ∧
    (s.lc.sending = some c → (txOf s.lc c).frames = f :: rest →
      nextSatisfies (exec .frameSentWhole s) fun t => noRecord s t ∧ t = { s with
        ps := t.ps
        lc := setTx { s.lc with sending := none, receiver := .counting } c { txOf s.lc c with frames := rest } }) ∧
    (∀ (raw : RawFrame) (b : Body), takenBody raw = some b → raw.src = ownStation s → hearing s = true →
      s.lc.line = .active →
      nextSatisfies (exec (.receiveQueueEntry raw) s) fun t => t.lc.line = .silent ∧ t.lc.receiver = .counting ∧
        t.lc.rx = s.lc.rx ∧ (s.su.slots = [] → noRecord s t ∧ t = { s with
          tp := { s.tp with events := s.tp.events ||| 0x08 }, ps := t.ps
          lc := { s.lc with line := .silent, receiver := .counting } })) ∧
    (isUp s = true → s.lc.line ≠ .off → s.lc.receiver ≠ .following →
      nextSatisfies (exec .idleGap s) fun t => noRecord s t ∧ t = { s with ps := t.ps, lc := { s.lc with
        receiver := .idle, stuck := 500, line := if s.lc.line = .stuck then .active else s.lc.line } }) ∧
    (isUp s = true → s.lc.line ≠ .off → s.lc.receiver = .idle →
      exec .startSymbol s = .next { s with lc := { s.lc with receiver := .following } }) ∧
    (isUp s = true → s.lc.line = .active → s.lc.stuck = 0 →
      nextSatisfies (exec .stuckTimerExpiry s) fun t => t.lc.line = .stuck ∧
        (s.su.slots = [] → noRecord s t ∧ t = { s with
          tp := { s.tp with events := s.tp.events ||| 0x08 }, lc := { s.lc with line := .stuck }, ps := t.ps }) ∧
        (∀ n sl, s.su.slots = [(n, sl)] → sl.kind = .redeem → sl.state = .asking → sl.pending = none → sl.offline = false →
          t.su.slots = [(n, notifying sl)] ∧
            t.su.due = s.su.due ++ [⟨plainNotice sl.tag sl.card .noAnswer, some n, true⟩]))

/-- The timers: at a tick every running one falls by one, and between ticks the period count alone moves (R184). At 0: a hold
ends, a local one with EXPIRED (R43, R59); a slot's reply window by kind and state (R72, R76 to R80); a slot's hold (R75); the DQ's
window (R91, R94); a back-off (R91); the quiet interval (R144); the tally window (R148). Inferences: the stuck timer on an idle line
(log 11), a step made with its cause (log 14), the tally timer with no member peer (log 18); a back-off's end at an event of its own
is the model's choice (log 25). -/
def Obligations.TimerExpiries : Prop :=
  ∀ s : State,
    (s.tp.refCount + 1 < s.tp.divisor → clock s = { s with tp := { s.tp with refCount := s.tp.refCount + 1 } }) ∧
    (∀ t : State, s.tp.divisor ≤ s.tp.refCount + 1 → t = clock s → t.tp = { s.tp with refCount := 0 } ∧
      (∀ i, holdAt t i = { holdAt s i with live := (holdAt s i).live.map fun h => { h with life := h.life - 1 } }) ∧
      (∀ n, slotAt t n = (slotAt s n).map fun sl =>
        { sl with reply := sl.reply.map (· - 1), holdTimer := sl.holdTimer.map (· - 1) }) ∧
      (∀ st, backoffOf t st = { backoffOf s st with time := (backoffOf s st).time.map (· - 1) }) ∧
      t = { s with
        tp := t.tp, ctu := { s.ctu with holds := t.ctu.holds }, su := { s.su with slots := t.su.slots }
        dq := { s.dq with backoff := t.dq.backoff, reply := s.dq.reply.map (· - 1) }
        lc := { s.lc with stuck := if s.lc.line = .active ∧ s.lc.receiver ≠ .idle then s.lc.stuck - 1 else s.lc.stuck }
        ps := { s.ps with timer := s.ps.timer - 1 }
        tu := { s.tu with quiet := s.tu.quiet.map (· - 1), tally := s.tu.tally.map (· - 1) } }) ∧
    (∀ (i : Fin 256) (h : LiveHold) (n : Notice) (q q' : List PostingRecord) (x : PostingRecord),
      (holdAt s i.val).live = some h → h.life = 0 → isOpen s = true →
      Table.rises s.ctu.holds = true → Table.rises s.ctu.held = true →
      n = { plainNotice h.tag (cardNumber s h.serial) .expired with amountA := h.grant } →
      nextSatisfies (exec (.holdExpiry i) s) fun t =>
        oneHold s t i.val ⟨(holdAt s i.val).gen, none⟩ h.serial (heldOf s h.serial - h.grant) ∧
        (h.places = 0 → noRecord s t ∧ t.tp = s.tp) ∧
        (h.places ≠ 0 → (∀ y ∈ s.ps.queue, grantedIn h.tag y = false) → noRecord s t ∧ t.tp = { s.tp with
          notices := s.tp.notices ++ [n], taken := s.tp.taken - 1, events := s.tp.events ||| 0x01 }) ∧
        (h.places ≠ 0 → s.ps.queue = q ++ x :: q' → (∀ y ∈ q, grantedIn h.tag y = false) → grantedIn h.tag x = true →
          t.tp = s.tp ∧ t.ps = { s.ps with
            queue := q ++ { x with deps := x.deps ++ [.placed n 0] } :: q', waiting := t.ps.waiting }) ∧
        t = { s with tp := t.tp, ctu := { s.ctu with holds := t.ctu.holds, held := t.ctu.held }, ps := t.ps }) ∧
    (∀ (n : Fin 32) (sl : Slot), slotAt s n.val = some sl → sl.reply = some 0 → sl.pending = none → isJoined s = true →
      nextSatisfies (exec (.replyWindowExpiry n) s) fun t =>
        (sl.state = .asking → sl.kind = .redeem → sl.offline = false →
          ended s t n.val sl (plainNotice sl.tag sl.card .noAnswer)) ∧
        (sl.state = .asking → sl.kind = .redeem → sl.offline = true → offlineOutcome s t s.lc n.val sl) ∧
        (sl.state = .asking → sl.kind = .inquire → ended s t n.val sl (plainNotice sl.tag sl.card .noAnswer)) ∧
        ((sl.state = .asking ∧ sl.kind = .ret) ∨ sl.state = .checking ∨
            (sl.state = .asking ∧ sl.kind = .load ∧ txFree s .c2 = 0) →
          ended s t n.val sl { plainNotice sl.tag sl.card .inDoubt with amountA := sl.amount }) ∧
        (sl.state = .asking → sl.kind = .load → 1 ≤ txFree s .c2 →
          oneSlot s t n.val (some { sl with state := .checking, reply := some s.tp.config.window, stalls := 0 }) ∧
          noRecord s t ∧ t = { s with ps := t.ps, su := { s.su with slots := t.su.slots }, lc := { s.lc with
            tx2 := { s.lc.tx2 with frames := s.lc.tx2.frames ++
              [⟨cardHome sl.card, .inquire sl.tag sl.card sl.check (some sl.tag), 0, 0⟩] } } }) ∧
        (sl.state = .claiming → entryOutcome s t s.lc n.val sl .deferRetry
          ⟨.claimRetry, .none, sl.card, sl.check, sl.amount, sl.tag, sl.hold.map (·.1), liveDay s, false, 0⟩)) ∧
    (∀ (n : Fin 32) (sl : Slot) (id : HoldId) (grant : Nat), slotAt s n.val = some sl → sl.state = .held →
      sl.hold = some (id, grant) → sl.holdTimer = some 0 → isJoined s = true →
      nextSatisfies (exec (.slotHoldExpiry n) s) fun t =>
        oneSlot s t n.val (some (notifying sl)) ∧ noRecord s t ∧ t = { s with
          ps := t.ps
          su := { s.su with slots := t.su.slots, due := s.su.due ++
            [⟨{ plainNotice sl.tag sl.card .expired with amountA := grant }, some n.val, true⟩] }
          lc := { s.lc with tx2 := { s.lc.tx2 with frames := s.lc.tx2.frames ++
            (if 1 ≤ txFree s .c2 then [⟨cardHome sl.card, .drop sl.tag id, 0, 0⟩] else []) } } }) ∧
    (∀ e : DeferredEntry, sentEntry s = some e → s.dq.reply = some 0 → s.dq.pending = none → isJoined s = true →
      Table.rises s.dq.backoff = true →
      nextSatisfies (exec .dqWindowExpiry s) fun t =>
        oneBackoff s t (cardHome e.card) ⟨min ((backoffOf s (cardHome e.card)).level + 1) 4,
          some (5000 * 2 ^ (backoffOf s (cardHome e.card)).level)⟩ ∧
        dqOutcome s t s.lc .backToWaiting { s.dq.area with entries := s.dq.area.entries.map fun x =>
          if x.sent then { x with sent := false, attempts := min (x.attempts + 1) 255 } else x } (s, []) []) ∧
    (∀ home : Station, (backoffOf s home).time = some 0 → isOpen s = true → Table.rises s.dq.backoff = true →
      nextSatisfies (exec (.backoffExpiry home) s) fun t =>
        oneBackoff s t home ⟨(backoffOf s home).level, none⟩ ∧ noRecord s t ∧
        t = { s with dq := { s.dq with backoff := t.dq.backoff }, ps := t.ps }) ∧
    (s.tu.state = .quiet → s.tu.quiet = some 0 → isJoined s = true →
      nextSatisfies (exec .quietTimerExpiry s) fun t => noRecord s t ∧ t = { s with ps := t.ps, tu := { s.tu with
        state := .tallying, quiet := none, sendList := memberPeers s
        tally := if memberPeers s = [] then some (s.tp.config.tally * 1000) else none } }) ∧
    (s.tu.state = .tallying → s.tu.tally = some 0 → isJoined s = true →
      nextSatisfies (exec .tallyTimerExpiry s) fun t => noRecord s t ∧ t = { s with ps := t.ps, tu := { s.tu with
        state := .computing, tally := none, result := none, computing := some (computeInputs s) } })

/-- A write's completion: every area update of the record stands in the store, the record leaves the queue, the next write gets
its 40 ms, and each dependent is released in the order attached, whatever the record (R125, R127, R129): an answer, a placed
notice, a request frame with its reply timer, a slot's notice, the DQ's frame with its timer, a LOSS, CONFIGURE's and SETTLE's
response, a TALLY, SETTLED (R12, R41, R59, R68, R84, R93, R96, R137, R143, R145, R149). That the station state changes with
CONFIGURE's response (log 10), that a request frame enters whatever became of its slot, whose timer starts only in ASKING with
the frame's tag and no pending step (log 20), and that an opening made keeps the round state at SETTLED's event (log 12), are inferences. A store
fault: HALTED-STORE, STORE set, the write torn, the queue gone, a PENDING command refused STORE-FAULT, with tag 0 (R128 to R130; of
CONFIRM and CANCEL: log 35); the waiting
answers DEGRADED; a FAULT notice for each placed notice and for each local hold, which ends (R62); the notices due before enter the
places that free; a slot without one due ends with FAULT (R85); a LOSS becomes a FAULT (R103); the round stops (R155). Which notices
FAULT stands for is an inference (log 13); their order at the one event is the model's choice (log 4). -/
def Obligations.StoreEvents : Prop :=
  (∀ (s : State) (r : PostingRecord) (rest : List PostingRecord), isRunning s = true → s.tp.startup = .none →
    s.ps.queue = r :: rest → (∀ c m j, s.tp.hand ≠ some (.configure c m j)) →
    nextSatisfies (exec .writeCompletion s) fun t =>
      t.ps = ⟨{ r.updates.foldl applyUpdate s.ps.store with torn := false }, rest, if rest = [] then 0 else 40, t.ps.waiting⟩ ∧
      t = { r.deps.foldl (fun u d => release d u) s with ps := t.ps }) ∧
  (∀ (st : Store) (k : Nat) (card : CardRecord) (n : Station) (l : PairLine) (m : PairMark) (r : RoundPart)
    (x : Option RoundPart) (t : Table PairLine) (ms : Table PairMark) (p : PayoutRecord PairState) (c : ConfigRecord) (d : Day)
    (tag : Tag) (log : CapLog) (a : DeferredArea),
    applyUpdate st (.config c) = { st with config := some c } ∧ applyUpdate st (.liveDay d) = { st with liveDay := some d } ∧
    applyUpdate st (.tagSeq tag) = { st with tagSeq := tag } ∧ applyUpdate st (.capLog log) = { st with capLog := log } ∧
    applyUpdate st .pairLiveClear = { st with live := [] } ∧ applyUpdate st (.roundPart r) = { st with round := r } ∧
    applyUpdate st .peerFiguresClear = { st with figures := [] } ∧ applyUpdate st (.deferred a) = { st with deferred := a } ∧
    (Table.rises st.cards = true → Table.rises st.live = true → Table.rises st.closing = true → Table.rises st.marks = true →
    applyUpdate st (.card k card) = { st with cards := (applyUpdate st (.card k card)).cards } ∧
    (∀ j, Table.get blankStoredCard (applyUpdate st (.card k card)).cards j =
      if j = k then storeCard card else Table.get blankStoredCard st.cards j) ∧
    applyUpdate st (.pairLive n l) = { st with live := (applyUpdate st (.pairLive n l)).live } ∧
    (∀ j, Table.get blankLine (applyUpdate st (.pairLive n l)).live j =
      if j = n.toNat then l else Table.get blankLine st.live j) ∧
    applyUpdate st (.pairClosing n l m x) = { st with
      closing := (applyUpdate st (.pairClosing n l m x)).closing, marks := (applyUpdate st (.pairClosing n l m x)).marks
      round := x.getD st.round } ∧
    (∀ j, Table.get blankLine (applyUpdate st (.pairClosing n l m x)).closing j =
      if j = n.toNat then l else Table.get blankLine st.closing j) ∧
    (∀ j, Table.get 0 (applyUpdate st (.pairClosing n l m x)).marks j =
      if j = n.toNat then (match m with | .none => 0 | .matched => 1 | .disputed => 2) else Table.get 0 st.marks j) ∧
    applyUpdate st (.pairClosingAll t ms r) = { st with
      closing := t, round := r, marks := ms.map fun e => (e.1, match e.2 with | .none => 0 | .matched => 1 | .disputed => 2) } ∧
    (∀ j, Table.find (applyUpdate st (.peerFigures n l)).figures j = if j = n.toNat then some l else Table.find st.figures j) ∧
    applyUpdate st (.peerFigures n l) = { st with figures := (applyUpdate st (.peerFigures n l)).figures } ∧
    applyUpdate st (.payout p) = { st with payout := some (mapPayout (fun
      | .matched => 1 | .disputed => 2 | .missing => 3) p) })) ∧
  (∀ (s : State) (dst : Station) (b : Body) (n : Notice) (asked k : Nat) (tag : Tag) (m : BitVec 16) (day : Day)
    (settle : Bool),
    release (.answer dst b) s = { s with lc := { s.lc with
      tx0 := ⟨s.lc.tx0.frames ++ [⟨dst, b, 0, 0⟩], s.lc.tx0.reserved - 1⟩ } } ∧
    release (.tally dst b) s = { s with lc := { s.lc with
      tx1 := ⟨s.lc.tx1.frames ++ [⟨dst, b, 0, 0⟩], s.lc.tx1.reserved - 1⟩ } } ∧
    (∀ t, t = release (.placed n asked) s →
      t = { s with ctu := { s.ctu with holds := t.ctu.holds }, tp := { s.tp with
        notices := s.tp.notices ++ [n], taken := s.tp.taken - 1, events := s.tp.events ||| 0x01 } } ∧
      (n.outcome ≠ .granted ∨ localHold s n.tag = none → t.ctu.holds = s.ctu.holds) ∧
      (∀ i h, n.outcome = .granted → localHold s n.tag = some (i, h) → Table.rises s.ctu.holds = true →
        holdAt t i = ⟨(holdAt s i).gen, some { h with places := 1 }⟩ ∧ ∀ j, j ≠ i → holdAt t j = holdAt s j)) ∧
    (∀ t, t = release (.slotFrame k tag dst b) s →
      t = { s with su := { s.su with slots := t.su.slots }, lc := { s.lc with
        tx2 := ⟨s.lc.tx2.frames ++ [⟨dst, b, 0, 0⟩], s.lc.tx2.reserved - 1⟩ } } ∧
      (∀ sl, slotAt s k = some sl → sl.tag = tag → sl.state = .asking → sl.pending = none →
        oneSlot s t k (some { sl with reply := some s.tp.config.window, stalls := 0 })) ∧
      ((∀ sl, slotAt s k = some sl → ¬ (sl.tag = tag ∧ sl.state = .asking ∧ sl.pending = none)) → t.su = s.su)) ∧
    release (.slotNotice k n) s = { s with su := { s.su with due := s.su.due ++ [⟨n, some k, true⟩] } } ∧
    (∀ t, t = release (.dqFrame dst b) s →
      t = { s with dq := t.dq, lc := { s.lc with tx3 := ⟨s.lc.tx3.frames ++ [⟨dst, b, 0, 0⟩], s.lc.tx3.reserved - 1⟩ } } ∧
      (∀ e, sentEntry s = some e → t.dq = if cardHome e.card = dst ∧ entryBody e = b ∧ s.dq.pending = none then
        { s.dq with reply := some s.tp.config.window, stalls := 0 } else s.dq) ∧ (sentEntry s = none → t.dq = s.dq)) ∧
    release (.loss n) s = { s with
      tp := { s.tp with events := s.tp.events ||| 0x80 }, su := { s.su with due := s.su.due ++ [⟨n, none, false⟩] } } ∧
    release (.configured m) s = { s with tp := { s.tp with
      station := .configured, busy := false, hand := none, response := { s.tp.response with
        result := .accepted, reason := .none, tag := 0, data := bytesOf 2 m.toNat } } } ∧
    release (.opened day settle) s = { s with
      tp := if settle then { s.tp with
          busy := false, hand := none
          response := { s.tp.response with result := .accepted, reason := .none, tag := 0, data := [] } }
        else s.tp
      tu := { s.tu with heldOpen := s.tu.heldOpen.map fun h => if h.day = day then { h with ready := true } else h } } ∧
    release (.payoutMade day) s = { s with
      tp := { s.tp with events := s.tp.events ||| 0x02 }
      tu := if s.tu.state = .computing ∧ s.tu.computing = none ∧ s.tu.round.day = some day then
        { s.tu with state := .settled } else s.tu }) ∧
  (∀ (t : Tag) (a b c : Amount) (d : Day) (p : Bool) (r : Reason) (q : CardState),
    degraded (.claimOk t a d p) = .claimNo t .degraded ∧ degraded (.postOk t a b r d p) = .postNo t .degraded ∧
    degraded (.loadOk t a d p) = .loadNo t .degraded ∧ degraded (.returnOk t a d) = .returnNo t .degraded ∧
    (∀ x, degraded (.balance t q a c x) =
      if x = .notAsked ∨ x = .notFound then .balance t q a c x else .inquireNo t .degraded)) ∧
  ∀ (s : State) (r : PostingRecord) (rest : List PostingRecord) (ds : List Dependent) (local' : List (Nat × LiveHold))
    (answers : List TxFrame) (faults entered : List Notice) (due left : List DueNotice), isRunning s = true →
    s.tp.startup = .none → s.ps.queue = r :: rest → s.ps.timer = 0 →
    Table.rises s.su.slots = true → Table.rises s.ctu.holds = true → Table.rises s.ctu.held = true →
    ds = s.ps.queue.flatMap (·.deps) → local' = (liveHolds s).filter (fun e => decide (e.2.places ≠ 0)) →
    answers = ds.filterMap (fun d => match d with | .answer dst b => some ⟨dst, degraded b, 0, 0⟩ | _ => none) →
    faults = ds.filterMap (fun d => match d with
      | .placed n asked => if n.outcome = .granted ∧ (localHold s n.tag).isSome = true then none
          else some { plainNotice n.tag n.card .fault with amountA := asked }
      | _ => none) ++ local'.map (fun e =>
        { plainNotice e.2.tag (cardNumber s e.2.serial) .fault with amountA := e.2.grant }) →
    due = (s.su.due ++ ds.filterMap (fun d => match d with
      | .loss n => some (⟨{ plainNotice n.tag n.card .fault with amountA := n.amountA }, none, false⟩ : DueNotice)
      | _ => none)).filter (fun d : DueNotice => !(d.slot.isSome && decide (d.notice.outcome = .granted))) →
    nextSatisfies (exec .storeFault s) fun t =>
      entered = (due.take (16 - s.tp.notices.length - faults.length - t.tp.taken)).map (·.notice) →
      left = due.drop (16 - s.tp.notices.length - faults.length - t.tp.taken) →
      t.tp = { s.tp with
        station := .halted, busy := t.tp.busy, hand := none, response := t.tp.response
        notices := s.tp.notices ++ faults ++ entered
        taken := s.tp.taken - (faults.length - local'.length + (local'.map fun e => e.2.places).sum)
        events := s.tp.events ||| 0x04 ||| if faults = [] ∧ entered = [] then 0 else 0x01 } ∧
      (s.tp.hand = none → t.tp.busy = s.tp.busy ∧ t.tp.response = s.tp.response) ∧
      (s.tp.hand.isSome = true → t.tp.busy = false ∧ t.tp.response =
        { s.tp.response with result := .refused, reason := .storeFault, tag := 0, data := [] }) ∧
      t.ctu = { s.ctu with holds := t.ctu.holds, held := t.ctu.held } ∧
      (∀ i, holdAt t i = if (local'.any fun e => e.1 == i) = true then ⟨(holdAt s i).gen, none⟩ else holdAt s i) ∧
      (∀ k, heldOf t k = heldOf s k - ((local'.filter fun e => e.2.serial == k).map fun e => e.2.grant).sum) ∧
      t.su = { s.su with
        slots := t.su.slots
        due := left ++ s.su.slots.filterMap fun x =>
          if (due.any fun d => d.terminal && d.slot == some x.1) = true then none
          else some ⟨{ plainNotice x.2.tag x.2.card .fault with amountA := x.2.amount }, some x.1, true⟩ } ∧
      (∀ n sl, slotAt s n = some sl → slotAt t n =
        if (due.any fun d => d.terminal && d.slot == some n) = false then some (notifying sl)
        else if (left.any fun d => d.terminal && d.slot == some n) = true ∧
          ((due.take (16 - s.tp.notices.length - faults.length - t.tp.taken)).any
            fun d => d.terminal && d.slot == some n) = false then some sl
        else none) ∧
      t.dq = { s.dq with reply := none, pending := none } ∧
      t.lc = { s.lc with
        tx0 := ⟨s.lc.tx0.frames ++ answers, s.lc.tx0.reserved - answers.length⟩
        tx1 := { s.lc.tx1 with reserved := 0 }
        tx2 := ⟨if s.lc.sending = some .c2 then s.lc.tx2.frames.take 1 else [], 0⟩
        tx3 := ⟨if s.lc.sending = some .c3 then s.lc.tx3.frames.take 1 else [], 0⟩ } ∧
      t.ps = ⟨{ s.ps.store with torn := true }, [], 0, []⟩ ∧
      t.tu = { s.tu with
        quiet := none, tally := none, opening := none, cutShort := false, heldOpen := none, sendList := [], inbound := []
        computing := none, result := none } ∧
      t = { s with tp := t.tp, ctu := t.ctu, su := t.su, dq := t.dq, lc := t.lc, ps := t.ps, tu := t.tu }

/-- The steps of a round: the opening's one record of four updates (R143), the held TALLY-OPEN (R143), a tally to a peer already
in the tallies-sent set and to one not yet in it, compared when its figures are present (R145, R147), the storing of a peer's
figures, compared once the peer is in the set, and the restart in COMPUTING and SETTLED (R146, R147, R150), the cut-short with the
comparisons that waited (R151), the end of a computation and its record (R149, R164, R166). -/
def Obligations.RoundSteps : Prop :=
  ∀ s : State,
    (∀ (o : Opening) (d : Day) (round : RoundPart), granted s = some .roundOpening → s.tu.opening = some o →
      s.tu.liveDay = some d → round = ⟨some d, 0, false⟩ →
      nextSatisfies (exec .roundOpening s) fun t =>
        oneRecord s t [.pairClosingAll s.tu.live [] round, .pairLiveClear, .liveDay (d + 1), .peerFiguresClear]
          [.opened d o.settle] ∧
        t = { s with ps := t.ps, tu := { s.tu with
          closing := s.tu.live, live := [], marks := [], round := round, figures := [], liveDay := some (d + 1)
          inbound := [], sendList := [], revised := false, state := .quiet, quiet := some (s.tp.config.quiet * 1000)
          tally := none, opening := none, cutShort := false
          heldOpen := if o.broadcast then some ⟨d, false⟩ else none } }) ∧
    (∀ h : HeldOpen, s.tu.heldOpen = some h → h.ready = true → 1 ≤ txFree s .c1 → isJoined s = true →
      nextSatisfies (exec .tallyOpenEntry s) fun t => noRecord s t ∧ t = { s with
        ps := t.ps, tu := { s.tu with heldOpen := none }
        lc := { s.lc with tx1 := { s.lc.tx1 with frames := s.lc.tx1.frames ++ [⟨63, .tallyOpen h.day, 0, 0⟩] } } }) ∧
    (∀ (p : Station) (rest : List Station) (d : Day), s.tu.sendList = p :: rest → tallyReady s = true →
      s.tu.round.day = some d → Table.rises s.tu.marks = true →
      (inSet s.tu.round.sent p = true → nextSatisfies (exec .tallyStep s) fun t => noRecord s t ∧ t = { s with
        ps := t.ps
        tu := { s.tu with
          sendList := rest
          tally := if rest = [] ∧ s.tu.cutShort = false then some (s.tp.config.tally * 1000) else s.tu.tally }
        lc := { s.lc with tx1 := { s.lc.tx1 with frames := s.lc.tx1.frames ++
          [⟨p, .tally d (closingLine s p), 0, 0⟩] } } }) ∧
      (inSet s.tu.round.sent p = false → granted s = some .tally →
        nextSatisfies (exec .tallyStep s) fun t =>
          markOf t p = comparedMark s p (figuresOf s p) ∧ (∀ x, x ≠ p → markOf t x = markOf s x) ∧
          oneRecord s t [.pairClosing p (closingLine s p) (markOf t p) (some t.tu.round)]
            [.tally p (.tally d (closingLine s p))] ∧
          t = { s with
            ps := t.ps
            tu := { s.tu with
              sendList := rest, marks := t.tu.marks
              tally := if rest = [] ∧ s.tu.cutShort = false then some (s.tp.config.tally * 1000) else s.tu.tally
              round := { s.tu.round with sent := s.tu.round.sent ||| (1#64 <<< p.toNat) } }
            lc := { s.lc with tx1 := { s.lc.tx1 with reserved := s.lc.tx1.reserved + 1 } } })) ∧
    (∀ (i : Inbound) (rest : List Inbound), granted s = some (.reception i.src) → s.tu.inbound = i :: rest →
      Table.rises s.tu.marks = true →
      nextSatisfies (exec .receptionStep s) fun t =>
        figuresOf t i.src = some i.block ∧ (∀ x, x ≠ i.src → figuresOf t x = figuresOf s x) ∧
        (inSet s.tu.round.sent i.src = false → t.tu.marks = s.tu.marks ∧ oneRecord s t [.peerFigures i.src i.block] []) ∧
        (inSet s.tu.round.sent i.src = true → markOf t i.src = comparedMark s i.src (some i.block) ∧
          (∀ x, x ≠ i.src → markOf t x = markOf s x) ∧
          oneRecord s t [.peerFigures i.src i.block, .pairClosing i.src (closingLine s i.src) (markOf t i.src) none] []) ∧
        t = { s with ps := t.ps, tu :=
          if s.tu.state = .computing ∨ s.tu.state = .settled then { s.tu with
            inbound := rest, figures := t.tu.figures, marks := t.tu.marks, revised := true, state := .computing
            result := none, computing := some (computeInputs t) }
          else { s.tu with inbound := rest, figures := t.tu.figures, marks := t.tu.marks } }) ∧
    (granted s = some .cutShort → s.tu.cutShort = true → Table.rises s.tu.marks = true →
      nextSatisfies (exec .cutShortStep s) fun t =>
        oneRecord s t [.pairClosingAll s.tu.closing t.tu.marks t.tu.round] [] ∧
        (∀ p, inSet t.tu.round.sent p = (inSet s.tu.round.sent p || decide (p ∈ memberPeers s))) ∧
        t.tu.round = { s.tu.round with sent := t.tu.round.sent } ∧
        (∀ p, markOf t p = if p ∈ memberPeers s ∧ inSet s.tu.round.sent p = false then comparedMark s p (figuresOf s p)
          else markOf s p) ∧
        t = { s with ps := t.ps, tu := { s.tu with
          sendList := [], cutShort := false, round := t.tu.round, marks := t.tu.marks, state := .computing
          computing := some (computeInputs t), result := none } }) ∧
    (∀ i : ComputeInputs, s.tu.computing = some i → isJoined s = true →
      nextSatisfies (exec .computationCompletion s) fun t => noRecord s t ∧ t = { s with ps := t.ps, tu := { s.tu with
        computing := none, result := some (computePayout i s.tu.revised) } }) ∧
    (∀ (p : PayoutRecord PairState) (round : RoundPart), granted s = some .payout → s.tu.result = some p →
      round = { s.tu.round with computed := true } →
      nextSatisfies (exec .payoutRecord s) fun t => oneRecord s t [.payout p, .roundPart round] [.payoutMade p.day] ∧
        t = { s with ps := t.ps, tu := { s.tu with result := none, payout := some p, round := round } })

end Statements
end

