-- ==== Sys2Proof/Laws/State.lean ====
section
/-! SUPPORT. What each shared operation leaves in each block of the state: one lemma per block, true by unfolding. Each
operation writes the block named in its changed lemma and leaves the others. -/
namespace Sys2Proof.Machine

/-- Two states are equal when their blocks are. -/
@[ext] theorem State.ext {s t : State} (tp : s.tp = t.tp) (ctu : s.ctu = t.ctu) (su : s.su = t.su) (dq : s.dq = t.dq)
    (lc : s.lc = t.lc) (ps : s.ps = t.ps) (tu : s.tu = t.tu) (choices : s.choices = t.choices)
    (pending : s.pending = t.pending) : s = t := by cases s; cases t; simp_all

/-! setTx -/

variable (l : Lc) (c d : TxClass) (q r : TxQueue)

@[simp] theorem setTx_line : (setTx l c q).line = l.line := by cases c <;> rfl
@[simp] theorem setTx_receiver : (setTx l c q).receiver = l.receiver := by cases c <;> rfl
@[simp] theorem setTx_stuck : (setTx l c q).stuck = l.stuck := by cases c <;> rfl
@[simp] theorem setTx_rx : (setTx l c q).rx = l.rx := by cases c <;> rfl
@[simp] theorem setTx_sending : (setTx l c q).sending = l.sending := by cases c <;> rfl
@[simp] theorem txOf_setTx : txOf (setTx l c q) c = q := by cases c <;> rfl
theorem txOf_setTx_of_ne (h : d ≠ c) : txOf (setTx l c q) d = txOf l d := by
  cases c <;> cases d <;> first | rfl | exact absurd rfl h
@[simp] theorem setTx_setTx : setTx (setTx l c q) c r = setTx l c r := by cases c <;> rfl
@[simp] theorem setTx_txOf : setTx l c (txOf l c) = l := by cases c <;> rfl
@[simp] theorem setTx_c0 : setTx l .c0 q = { l with tx0 := q } := rfl
@[simp] theorem setTx_c1 : setTx l .c1 q = { l with tx1 := q } := rfl
@[simp] theorem setTx_c2 : setTx l .c2 q = { l with tx2 := q } := rfl
@[simp] theorem setTx_c3 : setTx l .c3 q = { l with tx3 := q } := rfl
@[simp] theorem txOf_c0 : txOf l .c0 = l.tx0 := rfl
@[simp] theorem txOf_c1 : txOf l .c1 = l.tx1 := rfl
@[simp] theorem txOf_c2 : txOf l .c2 = l.tx2 := rfl
@[simp] theorem txOf_c3 : txOf l .c3 = l.tx3 := rfl

variable (s : State)

/-! setEvent -/

@[simp] theorem setEvent_tp (e : Event) :
    (setEvent e s).tp = { s.tp with events := s.tp.events ||| eventBit e } := rfl
@[simp] theorem setEvent_ctu (e : Event) : (setEvent e s).ctu = s.ctu := rfl
@[simp] theorem setEvent_su (e : Event) : (setEvent e s).su = s.su := rfl
@[simp] theorem setEvent_dq (e : Event) : (setEvent e s).dq = s.dq := rfl
@[simp] theorem setEvent_lc (e : Event) : (setEvent e s).lc = s.lc := rfl
@[simp] theorem setEvent_ps (e : Event) : (setEvent e s).ps = s.ps := rfl
@[simp] theorem setEvent_tu (e : Event) : (setEvent e s).tu = s.tu := rfl
@[simp] theorem setEvent_choices (e : Event) : (setEvent e s).choices = s.choices := rfl
@[simp] theorem setEvent_pending (e : Event) : (setEvent e s).pending = s.pending := rfl

/-! complete -/

@[simp] theorem complete_tp (r : Result) (w : Reason) (t : Tag) (d : List Byte) :
    (complete r w t d s).tp = { s.tp with
      response := { s.tp.response with result := r, reason := w, tag := t, data := d }, busy := false, hand := none } := rfl
@[simp] theorem complete_ctu (r : Result) (w : Reason) (t : Tag) (d : List Byte) : (complete r w t d s).ctu = s.ctu := rfl
@[simp] theorem complete_su (r : Result) (w : Reason) (t : Tag) (d : List Byte) : (complete r w t d s).su = s.su := rfl
@[simp] theorem complete_dq (r : Result) (w : Reason) (t : Tag) (d : List Byte) : (complete r w t d s).dq = s.dq := rfl
@[simp] theorem complete_lc (r : Result) (w : Reason) (t : Tag) (d : List Byte) : (complete r w t d s).lc = s.lc := rfl
@[simp] theorem complete_ps (r : Result) (w : Reason) (t : Tag) (d : List Byte) : (complete r w t d s).ps = s.ps := rfl
@[simp] theorem complete_tu (r : Result) (w : Reason) (t : Tag) (d : List Byte) : (complete r w t d s).tu = s.tu := rfl
@[simp] theorem complete_choices (r : Result) (w : Reason) (t : Tag) (d : List Byte) : (complete r w t d s).choices = s.choices := rfl
@[simp] theorem complete_pending (r : Result) (w : Reason) (t : Tag) (d : List Byte) : (complete r w t d s).pending = s.pending := rfl

/-! accept -/

@[simp] theorem accept_tp (t : Tag) (d : List Byte) : (accept t d s).tp = { s.tp with
      response := { s.tp.response with result := .accepted, reason := .none, tag := t, data := d }
      busy := false, hand := none } := rfl
@[simp] theorem accept_ctu (t : Tag) (d : List Byte) : (accept t d s).ctu = s.ctu := rfl
@[simp] theorem accept_su (t : Tag) (d : List Byte) : (accept t d s).su = s.su := rfl
@[simp] theorem accept_dq (t : Tag) (d : List Byte) : (accept t d s).dq = s.dq := rfl
@[simp] theorem accept_lc (t : Tag) (d : List Byte) : (accept t d s).lc = s.lc := rfl
@[simp] theorem accept_ps (t : Tag) (d : List Byte) : (accept t d s).ps = s.ps := rfl
@[simp] theorem accept_tu (t : Tag) (d : List Byte) : (accept t d s).tu = s.tu := rfl
@[simp] theorem accept_choices (t : Tag) (d : List Byte) : (accept t d s).choices = s.choices := rfl
@[simp] theorem accept_pending (t : Tag) (d : List Byte) : (accept t d s).pending = s.pending := rfl

/-! refuse -/

@[simp] theorem refuse_tp (w : Reason) : (refuse w s).tp = { s.tp with
      response := { s.tp.response with result := .refused, reason := w, tag := 0, data := [] }
      busy := false, hand := none } := rfl
@[simp] theorem refuse_ctu (w : Reason) : (refuse w s).ctu = s.ctu := rfl
@[simp] theorem refuse_su (w : Reason) : (refuse w s).su = s.su := rfl
@[simp] theorem refuse_dq (w : Reason) : (refuse w s).dq = s.dq := rfl
@[simp] theorem refuse_lc (w : Reason) : (refuse w s).lc = s.lc := rfl
@[simp] theorem refuse_ps (w : Reason) : (refuse w s).ps = s.ps := rfl
@[simp] theorem refuse_tu (w : Reason) : (refuse w s).tu = s.tu := rfl
@[simp] theorem refuse_choices (w : Reason) : (refuse w s).choices = s.choices := rfl
@[simp] theorem refuse_pending (w : Reason) : (refuse w s).pending = s.pending := rfl

/-! refuseNamed -/

@[simp] theorem refuseNamed_tp (w : Reason) (t : Tag) : (refuseNamed w t s).tp = { s.tp with
      response := { s.tp.response with result := .refused, reason := w, tag := t, data := [] }
      busy := false, hand := none } := rfl
@[simp] theorem refuseNamed_ctu (w : Reason) (t : Tag) : (refuseNamed w t s).ctu = s.ctu := rfl
@[simp] theorem refuseNamed_su (w : Reason) (t : Tag) : (refuseNamed w t s).su = s.su := rfl
@[simp] theorem refuseNamed_dq (w : Reason) (t : Tag) : (refuseNamed w t s).dq = s.dq := rfl
@[simp] theorem refuseNamed_lc (w : Reason) (t : Tag) : (refuseNamed w t s).lc = s.lc := rfl
@[simp] theorem refuseNamed_ps (w : Reason) (t : Tag) : (refuseNamed w t s).ps = s.ps := rfl
@[simp] theorem refuseNamed_tu (w : Reason) (t : Tag) : (refuseNamed w t s).tu = s.tu := rfl
@[simp] theorem refuseNamed_choices (w : Reason) (t : Tag) : (refuseNamed w t s).choices = s.choices := rfl
@[simp] theorem refuseNamed_pending (w : Reason) (t : Tag) : (refuseNamed w t s).pending = s.pending := rfl

/-! handTo -/

@[simp] theorem handTo_tp (h : Hand) : (handTo h s).tp = { s.tp with hand := some h } := rfl
@[simp] theorem handTo_ctu (h : Hand) : (handTo h s).ctu = s.ctu := rfl
@[simp] theorem handTo_su (h : Hand) : (handTo h s).su = s.su := rfl
@[simp] theorem handTo_dq (h : Hand) : (handTo h s).dq = s.dq := rfl
@[simp] theorem handTo_lc (h : Hand) : (handTo h s).lc = s.lc := rfl
@[simp] theorem handTo_ps (h : Hand) : (handTo h s).ps = s.ps := rfl
@[simp] theorem handTo_tu (h : Hand) : (handTo h s).tu = s.tu := rfl
@[simp] theorem handTo_choices (h : Hand) : (handTo h s).choices = s.choices := rfl
@[simp] theorem handTo_pending (h : Hand) : (handTo h s).pending = s.pending := rfl

/-! takePlaces -/

@[simp] theorem takePlaces_tp (n : Nat) : (takePlaces n s).tp = { s.tp with taken := s.tp.taken + n } := rfl
@[simp] theorem takePlaces_ctu (n : Nat) : (takePlaces n s).ctu = s.ctu := rfl
@[simp] theorem takePlaces_su (n : Nat) : (takePlaces n s).su = s.su := rfl
@[simp] theorem takePlaces_dq (n : Nat) : (takePlaces n s).dq = s.dq := rfl
@[simp] theorem takePlaces_lc (n : Nat) : (takePlaces n s).lc = s.lc := rfl
@[simp] theorem takePlaces_ps (n : Nat) : (takePlaces n s).ps = s.ps := rfl
@[simp] theorem takePlaces_tu (n : Nat) : (takePlaces n s).tu = s.tu := rfl
@[simp] theorem takePlaces_choices (n : Nat) : (takePlaces n s).choices = s.choices := rfl
@[simp] theorem takePlaces_pending (n : Nat) : (takePlaces n s).pending = s.pending := rfl

/-! freeTaken -/

@[simp] theorem freeTaken_tp (n : Nat) : (freeTaken n s).tp = { s.tp with taken := s.tp.taken - n } := rfl
@[simp] theorem freeTaken_ctu (n : Nat) : (freeTaken n s).ctu = s.ctu := rfl
@[simp] theorem freeTaken_su (n : Nat) : (freeTaken n s).su = s.su := rfl
@[simp] theorem freeTaken_dq (n : Nat) : (freeTaken n s).dq = s.dq := rfl
@[simp] theorem freeTaken_lc (n : Nat) : (freeTaken n s).lc = s.lc := rfl
@[simp] theorem freeTaken_ps (n : Nat) : (freeTaken n s).ps = s.ps := rfl
@[simp] theorem freeTaken_tu (n : Nat) : (freeTaken n s).tu = s.tu := rfl
@[simp] theorem freeTaken_choices (n : Nat) : (freeTaken n s).choices = s.choices := rfl
@[simp] theorem freeTaken_pending (n : Nat) : (freeTaken n s).pending = s.pending := rfl

/-! enterNotice -/

@[simp] theorem enterNotice_tp (n : Notice) : (enterNotice n s).tp = { s.tp with
      notices := s.tp.notices ++ [n], events := s.tp.events ||| eventBit .notice } := rfl
@[simp] theorem enterNotice_ctu (n : Notice) : (enterNotice n s).ctu = s.ctu := rfl
@[simp] theorem enterNotice_su (n : Notice) : (enterNotice n s).su = s.su := rfl
@[simp] theorem enterNotice_dq (n : Notice) : (enterNotice n s).dq = s.dq := rfl
@[simp] theorem enterNotice_lc (n : Notice) : (enterNotice n s).lc = s.lc := rfl
@[simp] theorem enterNotice_ps (n : Notice) : (enterNotice n s).ps = s.ps := rfl
@[simp] theorem enterNotice_tu (n : Notice) : (enterNotice n s).tu = s.tu := rfl
@[simp] theorem enterNotice_choices (n : Notice) : (enterNotice n s).choices = s.choices := rfl
@[simp] theorem enterNotice_pending (n : Notice) : (enterNotice n s).pending = s.pending := rfl

/-! enterPlaced -/

@[simp] theorem enterPlaced_tp (n : Notice) : (enterPlaced n s).tp = { s.tp with
      notices := s.tp.notices ++ [n], taken := s.tp.taken - 1, events := s.tp.events ||| eventBit .notice } := rfl
@[simp] theorem enterPlaced_ctu (n : Notice) : (enterPlaced n s).ctu = s.ctu := rfl
@[simp] theorem enterPlaced_su (n : Notice) : (enterPlaced n s).su = s.su := rfl
@[simp] theorem enterPlaced_dq (n : Notice) : (enterPlaced n s).dq = s.dq := rfl
@[simp] theorem enterPlaced_lc (n : Notice) : (enterPlaced n s).lc = s.lc := rfl
@[simp] theorem enterPlaced_ps (n : Notice) : (enterPlaced n s).ps = s.ps := rfl
@[simp] theorem enterPlaced_tu (n : Notice) : (enterPlaced n s).tu = s.tu := rfl
@[simp] theorem enterPlaced_choices (n : Notice) : (enterPlaced n s).choices = s.choices := rfl
@[simp] theorem enterPlaced_pending (n : Notice) : (enterPlaced n s).pending = s.pending := rfl

/-! fallDue -/

@[simp] theorem fallDue_tp (n : Notice) (o : Option Nat) (b : Bool) : (fallDue n o b s).tp = s.tp := rfl
@[simp] theorem fallDue_ctu (n : Notice) (o : Option Nat) (b : Bool) : (fallDue n o b s).ctu = s.ctu := rfl
@[simp] theorem fallDue_su (n : Notice) (o : Option Nat) (b : Bool) :
    (fallDue n o b s).su = { s.su with due := s.su.due ++ [⟨n, o, b⟩] } := rfl
@[simp] theorem fallDue_dq (n : Notice) (o : Option Nat) (b : Bool) : (fallDue n o b s).dq = s.dq := rfl
@[simp] theorem fallDue_lc (n : Notice) (o : Option Nat) (b : Bool) : (fallDue n o b s).lc = s.lc := rfl
@[simp] theorem fallDue_ps (n : Notice) (o : Option Nat) (b : Bool) : (fallDue n o b s).ps = s.ps := rfl
@[simp] theorem fallDue_tu (n : Notice) (o : Option Nat) (b : Bool) : (fallDue n o b s).tu = s.tu := rfl
@[simp] theorem fallDue_choices (n : Notice) (o : Option Nat) (b : Bool) : (fallDue n o b s).choices = s.choices := rfl
@[simp] theorem fallDue_pending (n : Notice) (o : Option Nat) (b : Bool) : (fallDue n o b s).pending = s.pending := rfl

/-! reserve -/

@[simp] theorem reserve_tp (c : TxClass) : (reserve c s).tp = s.tp := rfl
@[simp] theorem reserve_ctu (c : TxClass) : (reserve c s).ctu = s.ctu := rfl
@[simp] theorem reserve_su (c : TxClass) : (reserve c s).su = s.su := rfl
@[simp] theorem reserve_dq (c : TxClass) : (reserve c s).dq = s.dq := rfl
@[simp] theorem reserve_lc (c : TxClass) :
    (reserve c s).lc = setTx s.lc c { txOf s.lc c with reserved := (txOf s.lc c).reserved + 1 } := rfl
@[simp] theorem reserve_ps (c : TxClass) : (reserve c s).ps = s.ps := rfl
@[simp] theorem reserve_tu (c : TxClass) : (reserve c s).tu = s.tu := rfl
@[simp] theorem reserve_choices (c : TxClass) : (reserve c s).choices = s.choices := rfl
@[simp] theorem reserve_pending (c : TxClass) : (reserve c s).pending = s.pending := rfl

/-! unreserve -/

@[simp] theorem unreserve_tp (c : TxClass) : (unreserve c s).tp = s.tp := rfl
@[simp] theorem unreserve_ctu (c : TxClass) : (unreserve c s).ctu = s.ctu := rfl
@[simp] theorem unreserve_su (c : TxClass) : (unreserve c s).su = s.su := rfl
@[simp] theorem unreserve_dq (c : TxClass) : (unreserve c s).dq = s.dq := rfl
@[simp] theorem unreserve_lc (c : TxClass) :
    (unreserve c s).lc = setTx s.lc c { txOf s.lc c with reserved := (txOf s.lc c).reserved - 1 } := rfl
@[simp] theorem unreserve_ps (c : TxClass) : (unreserve c s).ps = s.ps := rfl
@[simp] theorem unreserve_tu (c : TxClass) : (unreserve c s).tu = s.tu := rfl
@[simp] theorem unreserve_choices (c : TxClass) : (unreserve c s).choices = s.choices := rfl
@[simp] theorem unreserve_pending (c : TxClass) : (unreserve c s).pending = s.pending := rfl

/-! enqueue -/

@[simp] theorem enqueue_tp (c : TxClass) (d : Station) (b : Body) : (enqueue c d b s).tp = s.tp := rfl
@[simp] theorem enqueue_ctu (c : TxClass) (d : Station) (b : Body) : (enqueue c d b s).ctu = s.ctu := rfl
@[simp] theorem enqueue_su (c : TxClass) (d : Station) (b : Body) : (enqueue c d b s).su = s.su := rfl
@[simp] theorem enqueue_dq (c : TxClass) (d : Station) (b : Body) : (enqueue c d b s).dq = s.dq := rfl
@[simp] theorem enqueue_lc (c : TxClass) (d : Station) (b : Body) :
    (enqueue c d b s).lc = setTx s.lc c { txOf s.lc c with frames := (txOf s.lc c).frames ++ [⟨d, b, 0, 0⟩] } := rfl
@[simp] theorem enqueue_ps (c : TxClass) (d : Station) (b : Body) : (enqueue c d b s).ps = s.ps := rfl
@[simp] theorem enqueue_tu (c : TxClass) (d : Station) (b : Body) : (enqueue c d b s).tu = s.tu := rfl
@[simp] theorem enqueue_choices (c : TxClass) (d : Station) (b : Body) : (enqueue c d b s).choices = s.choices := rfl
@[simp] theorem enqueue_pending (c : TxClass) (d : Station) (b : Body) : (enqueue c d b s).pending = s.pending := rfl

/-! enterReserved -/

@[simp] theorem enterReserved_tp (c : TxClass) (d : Station) (b : Body) : (enterReserved c d b s).tp = s.tp := rfl
@[simp] theorem enterReserved_ctu (c : TxClass) (d : Station) (b : Body) : (enterReserved c d b s).ctu = s.ctu := rfl
@[simp] theorem enterReserved_su (c : TxClass) (d : Station) (b : Body) : (enterReserved c d b s).su = s.su := rfl
@[simp] theorem enterReserved_dq (c : TxClass) (d : Station) (b : Body) : (enterReserved c d b s).dq = s.dq := rfl
@[simp] theorem enterReserved_ps (c : TxClass) (d : Station) (b : Body) : (enterReserved c d b s).ps = s.ps := rfl
@[simp] theorem enterReserved_tu (c : TxClass) (d : Station) (b : Body) : (enterReserved c d b s).tu = s.tu := rfl
@[simp] theorem enterReserved_choices (c : TxClass) (d : Station) (b : Body) : (enterReserved c d b s).choices = s.choices := rfl
@[simp] theorem enterReserved_pending (c : TxClass) (d : Station) (b : Body) : (enterReserved c d b s).pending = s.pending := rfl

/-! withdraw -/

@[simp] theorem withdraw_tp (c : TxClass) : (withdraw c s).tp = s.tp := rfl
@[simp] theorem withdraw_ctu (c : TxClass) : (withdraw c s).ctu = s.ctu := rfl
@[simp] theorem withdraw_su (c : TxClass) : (withdraw c s).su = s.su := rfl
@[simp] theorem withdraw_dq (c : TxClass) : (withdraw c s).dq = s.dq := rfl
@[simp] theorem withdraw_lc (c : TxClass) :
    (withdraw c s).lc = setTx s.lc c ⟨if s.lc.sending = some c then (txOf s.lc c).frames.take 1 else [], 0⟩ := rfl
@[simp] theorem withdraw_ps (c : TxClass) : (withdraw c s).ps = s.ps := rfl
@[simp] theorem withdraw_tu (c : TxClass) : (withdraw c s).tu = s.tu := rfl
@[simp] theorem withdraw_choices (c : TxClass) : (withdraw c s).choices = s.choices := rfl
@[simp] theorem withdraw_pending (c : TxClass) : (withdraw c s).pending = s.pending := rfl

/-! makeRecord -/

@[simp] theorem makeRecord_tp (us : List AreaUpdate) (ds : List Dependent) : (makeRecord us ds s).tp = s.tp := rfl
@[simp] theorem makeRecord_ctu (us : List AreaUpdate) (ds : List Dependent) : (makeRecord us ds s).ctu = s.ctu := rfl
@[simp] theorem makeRecord_su (us : List AreaUpdate) (ds : List Dependent) : (makeRecord us ds s).su = s.su := rfl
@[simp] theorem makeRecord_dq (us : List AreaUpdate) (ds : List Dependent) : (makeRecord us ds s).dq = s.dq := rfl
@[simp] theorem makeRecord_lc (us : List AreaUpdate) (ds : List Dependent) : (makeRecord us ds s).lc = s.lc := rfl
@[simp] theorem makeRecord_ps (us : List AreaUpdate) (ds : List Dependent) : (makeRecord us ds s).ps = { s.ps with
      queue := s.ps.queue ++ [⟨us, ds⟩], timer := if s.ps.queue.isEmpty then Config.writeTimeout else s.ps.timer } := rfl
@[simp] theorem makeRecord_tu (us : List AreaUpdate) (ds : List Dependent) : (makeRecord us ds s).tu = s.tu := rfl
@[simp] theorem makeRecord_choices (us : List AreaUpdate) (ds : List Dependent) : (makeRecord us ds s).choices = s.choices := rfl
@[simp] theorem makeRecord_pending (us : List AreaUpdate) (ds : List Dependent) : (makeRecord us ds s).pending = s.pending := rfl

/-! recordWithAnswer -/

@[simp] theorem recordWithAnswer_tp (us : List AreaUpdate) (d : Station) (b : Body) : (recordWithAnswer us d b s).tp = s.tp := rfl
@[simp] theorem recordWithAnswer_ctu (us : List AreaUpdate) (d : Station) (b : Body) : (recordWithAnswer us d b s).ctu = s.ctu := rfl
@[simp] theorem recordWithAnswer_su (us : List AreaUpdate) (d : Station) (b : Body) : (recordWithAnswer us d b s).su = s.su := rfl
@[simp] theorem recordWithAnswer_dq (us : List AreaUpdate) (d : Station) (b : Body) : (recordWithAnswer us d b s).dq = s.dq := rfl
@[simp] theorem recordWithAnswer_lc (us : List AreaUpdate) (d : Station) (b : Body) :
    (recordWithAnswer us d b s).lc = { s.lc with tx0 := { s.lc.tx0 with reserved := s.lc.tx0.reserved + 1 } } := rfl
@[simp] theorem recordWithAnswer_ps (us : List AreaUpdate) (d : Station) (b : Body) :
    (recordWithAnswer us d b s).ps = { s.ps with
      queue := s.ps.queue ++ [⟨us, [.answer d b]⟩]
      timer := if s.ps.queue.isEmpty then Config.writeTimeout else s.ps.timer } := rfl
@[simp] theorem recordWithAnswer_tu (us : List AreaUpdate) (d : Station) (b : Body) : (recordWithAnswer us d b s).tu = s.tu := rfl
@[simp] theorem recordWithAnswer_choices (us : List AreaUpdate) (d : Station) (b : Body) : (recordWithAnswer us d b s).choices = s.choices := rfl
@[simp] theorem recordWithAnswer_pending (us : List AreaUpdate) (d : Station) (b : Body) : (recordWithAnswer us d b s).pending = s.pending := rfl

/-! putCard -/

@[simp] theorem putCard_tp (k : Nat) (r : CardRecord) : (putCard k r s).tp = s.tp := rfl
@[simp] theorem putCard_ctu (k : Nat) (r : CardRecord) : (putCard k r s).ctu = { s.ctu with
      cards := Table.set blankCard s.ctu.cards k r, liability := s.ctu.liability + r.balance - (cardOf s k).balance } := rfl
@[simp] theorem putCard_su (k : Nat) (r : CardRecord) : (putCard k r s).su = s.su := rfl
@[simp] theorem putCard_dq (k : Nat) (r : CardRecord) : (putCard k r s).dq = s.dq := rfl
@[simp] theorem putCard_lc (k : Nat) (r : CardRecord) : (putCard k r s).lc = s.lc := rfl
@[simp] theorem putCard_ps (k : Nat) (r : CardRecord) : (putCard k r s).ps = s.ps := rfl
@[simp] theorem putCard_tu (k : Nat) (r : CardRecord) : (putCard k r s).tu = s.tu := rfl
@[simp] theorem putCard_choices (k : Nat) (r : CardRecord) : (putCard k r s).choices = s.choices := rfl
@[simp] theorem putCard_pending (k : Nat) (r : CardRecord) : (putCard k r s).pending = s.pending := rfl

/-! putHeld -/

@[simp] theorem putHeld_tp (k n : Nat) : (putHeld k n s).tp = s.tp := rfl
@[simp] theorem putHeld_ctu (k n : Nat) :
    (putHeld k n s).ctu = { s.ctu with held := Table.set 0 s.ctu.held k n } := rfl
@[simp] theorem putHeld_su (k n : Nat) : (putHeld k n s).su = s.su := rfl
@[simp] theorem putHeld_dq (k n : Nat) : (putHeld k n s).dq = s.dq := rfl
@[simp] theorem putHeld_lc (k n : Nat) : (putHeld k n s).lc = s.lc := rfl
@[simp] theorem putHeld_ps (k n : Nat) : (putHeld k n s).ps = s.ps := rfl
@[simp] theorem putHeld_tu (k n : Nat) : (putHeld k n s).tu = s.tu := rfl
@[simp] theorem putHeld_choices (k n : Nat) : (putHeld k n s).choices = s.choices := rfl
@[simp] theorem putHeld_pending (k n : Nat) : (putHeld k n s).pending = s.pending := rfl

/-! putHold -/

@[simp] theorem putHold_tp (i : Nat) (e : HoldEntry) : (putHold i e s).tp = s.tp := rfl
@[simp] theorem putHold_ctu (i : Nat) (e : HoldEntry) :
    (putHold i e s).ctu = { s.ctu with holds := Table.set blankHold s.ctu.holds i e } := rfl
@[simp] theorem putHold_su (i : Nat) (e : HoldEntry) : (putHold i e s).su = s.su := rfl
@[simp] theorem putHold_dq (i : Nat) (e : HoldEntry) : (putHold i e s).dq = s.dq := rfl
@[simp] theorem putHold_lc (i : Nat) (e : HoldEntry) : (putHold i e s).lc = s.lc := rfl
@[simp] theorem putHold_ps (i : Nat) (e : HoldEntry) : (putHold i e s).ps = s.ps := rfl
@[simp] theorem putHold_tu (i : Nat) (e : HoldEntry) : (putHold i e s).tu = s.tu := rfl
@[simp] theorem putHold_choices (i : Nat) (e : HoldEntry) : (putHold i e s).choices = s.choices := rfl
@[simp] theorem putHold_pending (i : Nat) (e : HoldEntry) : (putHold i e s).pending = s.pending := rfl

/-! makeHold -/

@[simp] theorem makeHold_tp (i : Nat) (h : LiveHold) : (makeHold i h s).tp = s.tp := rfl
@[simp] theorem makeHold_ctu (i : Nat) (h : LiveHold) : (makeHold i h s).ctu = { s.ctu with
      holds := Table.set blankHold s.ctu.holds i ⟨(holdAt s i).gen + 1, some h⟩
      held := Table.set 0 s.ctu.held h.serial (heldOf s h.serial + h.grant) } := rfl
@[simp] theorem makeHold_su (i : Nat) (h : LiveHold) : (makeHold i h s).su = s.su := rfl
@[simp] theorem makeHold_dq (i : Nat) (h : LiveHold) : (makeHold i h s).dq = s.dq := rfl
@[simp] theorem makeHold_lc (i : Nat) (h : LiveHold) : (makeHold i h s).lc = s.lc := rfl
@[simp] theorem makeHold_ps (i : Nat) (h : LiveHold) : (makeHold i h s).ps = s.ps := rfl
@[simp] theorem makeHold_tu (i : Nat) (h : LiveHold) : (makeHold i h s).tu = s.tu := rfl
@[simp] theorem makeHold_choices (i : Nat) (h : LiveHold) : (makeHold i h s).choices = s.choices := rfl
@[simp] theorem makeHold_pending (i : Nat) (h : LiveHold) : (makeHold i h s).pending = s.pending := rfl

/-! freeEntry -/

@[simp] theorem freeEntry_tp (i : Nat) (h : LiveHold) : (freeEntry i h s).tp = s.tp := rfl
@[simp] theorem freeEntry_ctu (i : Nat) (h : LiveHold) : (freeEntry i h s).ctu = { s.ctu with
      holds := Table.set blankHold s.ctu.holds i ⟨(holdAt s i).gen, none⟩
      held := Table.set 0 s.ctu.held h.serial (heldOf s h.serial - h.grant) } := rfl
@[simp] theorem freeEntry_su (i : Nat) (h : LiveHold) : (freeEntry i h s).su = s.su := rfl
@[simp] theorem freeEntry_dq (i : Nat) (h : LiveHold) : (freeEntry i h s).dq = s.dq := rfl
@[simp] theorem freeEntry_lc (i : Nat) (h : LiveHold) : (freeEntry i h s).lc = s.lc := rfl
@[simp] theorem freeEntry_ps (i : Nat) (h : LiveHold) : (freeEntry i h s).ps = s.ps := rfl
@[simp] theorem freeEntry_tu (i : Nat) (h : LiveHold) : (freeEntry i h s).tu = s.tu := rfl
@[simp] theorem freeEntry_choices (i : Nat) (h : LiveHold) : (freeEntry i h s).choices = s.choices := rfl
@[simp] theorem freeEntry_pending (i : Nat) (h : LiveHold) : (freeEntry i h s).pending = s.pending := rfl

/-! putCapLog -/

@[simp] theorem putCapLog_tp (l : CapLog) : (putCapLog l s).tp = s.tp := rfl
@[simp] theorem putCapLog_ctu (l : CapLog) : (putCapLog l s).ctu = { s.ctu with capLog := l } := rfl
@[simp] theorem putCapLog_su (l : CapLog) : (putCapLog l s).su = s.su := rfl
@[simp] theorem putCapLog_dq (l : CapLog) : (putCapLog l s).dq = s.dq := rfl
@[simp] theorem putCapLog_lc (l : CapLog) : (putCapLog l s).lc = s.lc := rfl
@[simp] theorem putCapLog_ps (l : CapLog) : (putCapLog l s).ps = s.ps := rfl
@[simp] theorem putCapLog_tu (l : CapLog) : (putCapLog l s).tu = s.tu := rfl
@[simp] theorem putCapLog_choices (l : CapLog) : (putCapLog l s).choices = s.choices := rfl
@[simp] theorem putCapLog_pending (l : CapLog) : (putCapLog l s).pending = s.pending := rfl

/-! countAtHome -/

@[simp] theorem countAtHome_tp (st : Station) (p : HomePos) (n : Nat) : (countAtHome st p n s).tp = s.tp := rfl
@[simp] theorem countAtHome_ctu (st : Station) (p : HomePos) (n : Nat) : (countAtHome st p n s).ctu = s.ctu := rfl
@[simp] theorem countAtHome_su (st : Station) (p : HomePos) (n : Nat) : (countAtHome st p n s).su = s.su := rfl
@[simp] theorem countAtHome_dq (st : Station) (p : HomePos) (n : Nat) : (countAtHome st p n s).dq = s.dq := rfl
@[simp] theorem countAtHome_lc (st : Station) (p : HomePos) (n : Nat) : (countAtHome st p n s).lc = s.lc := rfl
@[simp] theorem countAtHome_ps (st : Station) (p : HomePos) (n : Nat) : (countAtHome st p n s).ps = s.ps := rfl
@[simp] theorem countAtHome_tu (st : Station) (p : HomePos) (n : Nat) : (countAtHome st p n s).tu = { s.tu with
      live := Table.set blankLine s.tu.live st.toNat (countHome (liveLine s st) p n) } := rfl
@[simp] theorem countAtHome_choices (st : Station) (p : HomePos) (n : Nat) : (countAtHome st p n s).choices = s.choices := rfl
@[simp] theorem countAtHome_pending (st : Station) (p : HomePos) (n : Nat) : (countAtHome st p n s).pending = s.pending := rfl

/-! putTagSeq -/

@[simp] theorem putTagSeq_tp (t : Tag) : (putTagSeq t s).tp = s.tp := rfl
@[simp] theorem putTagSeq_ctu (t : Tag) : (putTagSeq t s).ctu = s.ctu := rfl
@[simp] theorem putTagSeq_su (t : Tag) : (putTagSeq t s).su = { s.su with tagSeq := t } := rfl
@[simp] theorem putTagSeq_dq (t : Tag) : (putTagSeq t s).dq = s.dq := rfl
@[simp] theorem putTagSeq_lc (t : Tag) : (putTagSeq t s).lc = s.lc := rfl
@[simp] theorem putTagSeq_ps (t : Tag) : (putTagSeq t s).ps = s.ps := rfl
@[simp] theorem putTagSeq_tu (t : Tag) : (putTagSeq t s).tu = s.tu := rfl
@[simp] theorem putTagSeq_choices (t : Tag) : (putTagSeq t s).choices = s.choices := rfl
@[simp] theorem putTagSeq_pending (t : Tag) : (putTagSeq t s).pending = s.pending := rfl

/-! passTurn -/

@[simp] theorem passTurn_tp (t : Turn) : (passTurn t s).tp = s.tp := rfl
@[simp] theorem passTurn_ctu (t : Turn) : (passTurn t s).ctu = { s.ctu with turn := t } := rfl
@[simp] theorem passTurn_su (t : Turn) : (passTurn t s).su = s.su := rfl
@[simp] theorem passTurn_dq (t : Turn) : (passTurn t s).dq = s.dq := rfl
@[simp] theorem passTurn_lc (t : Turn) : (passTurn t s).lc = s.lc := rfl
@[simp] theorem passTurn_ps (t : Turn) : (passTurn t s).ps = s.ps := rfl
@[simp] theorem passTurn_tu (t : Turn) : (passTurn t s).tu = s.tu := rfl
@[simp] theorem passTurn_choices (t : Turn) : (passTurn t s).choices = s.choices := rfl
@[simp] theorem passTurn_pending (t : Turn) : (passTurn t s).pending = s.pending := rfl

/-! putSlot -/

@[simp] theorem putSlot_tp (n : Nat) (sl : Slot) : (putSlot n sl s).tp = s.tp := rfl
@[simp] theorem putSlot_ctu (n : Nat) (sl : Slot) : (putSlot n sl s).ctu = s.ctu := rfl
@[simp] theorem putSlot_su (n : Nat) (sl : Slot) :
    (putSlot n sl s).su = { s.su with slots := Table.put s.su.slots n sl } := rfl
@[simp] theorem putSlot_dq (n : Nat) (sl : Slot) : (putSlot n sl s).dq = s.dq := rfl
@[simp] theorem putSlot_lc (n : Nat) (sl : Slot) : (putSlot n sl s).lc = s.lc := rfl
@[simp] theorem putSlot_ps (n : Nat) (sl : Slot) : (putSlot n sl s).ps = s.ps := rfl
@[simp] theorem putSlot_tu (n : Nat) (sl : Slot) : (putSlot n sl s).tu = s.tu := rfl
@[simp] theorem putSlot_choices (n : Nat) (sl : Slot) : (putSlot n sl s).choices = s.choices := rfl
@[simp] theorem putSlot_pending (n : Nat) (sl : Slot) : (putSlot n sl s).pending = s.pending := rfl

/-! freeSlot -/

@[simp] theorem freeSlot_tp (n : Nat) : (freeSlot n s).tp = s.tp := rfl
@[simp] theorem freeSlot_ctu (n : Nat) : (freeSlot n s).ctu = s.ctu := rfl
@[simp] theorem freeSlot_su (n : Nat) : (freeSlot n s).su = { s.su with slots := Table.drop s.su.slots n } := rfl
@[simp] theorem freeSlot_dq (n : Nat) : (freeSlot n s).dq = s.dq := rfl
@[simp] theorem freeSlot_lc (n : Nat) : (freeSlot n s).lc = s.lc := rfl
@[simp] theorem freeSlot_ps (n : Nat) : (freeSlot n s).ps = s.ps := rfl
@[simp] theorem freeSlot_tu (n : Nat) : (freeSlot n s).tu = s.tu := rfl
@[simp] theorem freeSlot_choices (n : Nat) : (freeSlot n s).choices = s.choices := rfl
@[simp] theorem freeSlot_pending (n : Nat) : (freeSlot n s).pending = s.pending := rfl

/-! endSlot -/

@[simp] theorem endSlot_tp (n : Nat) (sl : Slot) (m : Notice) : (endSlot n sl m s).tp = s.tp := rfl
@[simp] theorem endSlot_ctu (n : Nat) (sl : Slot) (m : Notice) : (endSlot n sl m s).ctu = s.ctu := rfl
@[simp] theorem endSlot_su (n : Nat) (sl : Slot) (m : Notice) : (endSlot n sl m s).su = { s.su with
      slots := Table.put s.su.slots n (notifying sl), due := s.su.due ++ [⟨m, some n, true⟩] } := rfl
@[simp] theorem endSlot_dq (n : Nat) (sl : Slot) (m : Notice) : (endSlot n sl m s).dq = s.dq := rfl
@[simp] theorem endSlot_lc (n : Nat) (sl : Slot) (m : Notice) : (endSlot n sl m s).lc = s.lc := rfl
@[simp] theorem endSlot_ps (n : Nat) (sl : Slot) (m : Notice) : (endSlot n sl m s).ps = s.ps := rfl
@[simp] theorem endSlot_tu (n : Nat) (sl : Slot) (m : Notice) : (endSlot n sl m s).tu = s.tu := rfl
@[simp] theorem endSlot_choices (n : Nat) (sl : Slot) (m : Notice) : (endSlot n sl m s).choices = s.choices := rfl
@[simp] theorem endSlot_pending (n : Nat) (sl : Slot) (m : Notice) : (endSlot n sl m s).pending = s.pending := rfl

/-! waitStep -/

@[simp] theorem waitStep_tp (n : Nat) (sl : Slot) (w : SlotStep) : (waitStep n sl w s).tp = s.tp := rfl
@[simp] theorem waitStep_ctu (n : Nat) (sl : Slot) (w : SlotStep) : (waitStep n sl w s).ctu = s.ctu := rfl
@[simp] theorem waitStep_su (n : Nat) (sl : Slot) (w : SlotStep) : (waitStep n sl w s).su = { s.su with
      slots := Table.put s.su.slots n { sl with reply := none, pending := some w } } := rfl
@[simp] theorem waitStep_dq (n : Nat) (sl : Slot) (w : SlotStep) : (waitStep n sl w s).dq = s.dq := rfl
@[simp] theorem waitStep_lc (n : Nat) (sl : Slot) (w : SlotStep) : (waitStep n sl w s).lc = s.lc := rfl
@[simp] theorem waitStep_ps (n : Nat) (sl : Slot) (w : SlotStep) : (waitStep n sl w s).ps = s.ps := rfl
@[simp] theorem waitStep_tu (n : Nat) (sl : Slot) (w : SlotStep) : (waitStep n sl w s).tu = s.tu := rfl
@[simp] theorem waitStep_choices (n : Nat) (sl : Slot) (w : SlotStep) : (waitStep n sl w s).choices = s.choices := rfl
@[simp] theorem waitStep_pending (n : Nat) (sl : Slot) (w : SlotStep) : (waitStep n sl w s).pending = s.pending := rfl

/-! putDeferred -/

@[simp] theorem putDeferred_tp (a : DeferredArea) : (putDeferred a s).tp = s.tp := rfl
@[simp] theorem putDeferred_ctu (a : DeferredArea) : (putDeferred a s).ctu = s.ctu := rfl
@[simp] theorem putDeferred_su (a : DeferredArea) : (putDeferred a s).su = s.su := rfl
@[simp] theorem putDeferred_dq (a : DeferredArea) : (putDeferred a s).dq = { s.dq with area := a } := rfl
@[simp] theorem putDeferred_lc (a : DeferredArea) : (putDeferred a s).lc = s.lc := rfl
@[simp] theorem putDeferred_ps (a : DeferredArea) : (putDeferred a s).ps = s.ps := rfl
@[simp] theorem putDeferred_tu (a : DeferredArea) : (putDeferred a s).tu = s.tu := rfl
@[simp] theorem putDeferred_choices (a : DeferredArea) : (putDeferred a s).choices = s.choices := rfl
@[simp] theorem putDeferred_pending (a : DeferredArea) : (putDeferred a s).pending = s.pending := rfl

/-! putBackoff -/

@[simp] theorem putBackoff_tp (h : Station) (b : BackoffLine) : (putBackoff h b s).tp = s.tp := rfl
@[simp] theorem putBackoff_ctu (h : Station) (b : BackoffLine) : (putBackoff h b s).ctu = s.ctu := rfl
@[simp] theorem putBackoff_su (h : Station) (b : BackoffLine) : (putBackoff h b s).su = s.su := rfl
@[simp] theorem putBackoff_dq (h : Station) (b : BackoffLine) :
    (putBackoff h b s).dq = { s.dq with backoff := Table.set blankBackoff s.dq.backoff h.toNat b } := rfl
@[simp] theorem putBackoff_lc (h : Station) (b : BackoffLine) : (putBackoff h b s).lc = s.lc := rfl
@[simp] theorem putBackoff_ps (h : Station) (b : BackoffLine) : (putBackoff h b s).ps = s.ps := rfl
@[simp] theorem putBackoff_tu (h : Station) (b : BackoffLine) : (putBackoff h b s).tu = s.tu := rfl
@[simp] theorem putBackoff_choices (h : Station) (b : BackoffLine) : (putBackoff h b s).choices = s.choices := rfl
@[simp] theorem putBackoff_pending (h : Station) (b : BackoffLine) : (putBackoff h b s).pending = s.pending := rfl

/-! putMark -/

@[simp] theorem putMark_tp (st : Station) (m : PairMark) : (putMark st m s).tp = s.tp := rfl
@[simp] theorem putMark_ctu (st : Station) (m : PairMark) : (putMark st m s).ctu = s.ctu := rfl
@[simp] theorem putMark_su (st : Station) (m : PairMark) : (putMark st m s).su = s.su := rfl
@[simp] theorem putMark_dq (st : Station) (m : PairMark) : (putMark st m s).dq = s.dq := rfl
@[simp] theorem putMark_lc (st : Station) (m : PairMark) : (putMark st m s).lc = s.lc := rfl
@[simp] theorem putMark_ps (st : Station) (m : PairMark) : (putMark st m s).ps = s.ps := rfl
@[simp] theorem putMark_tu (st : Station) (m : PairMark) :
    (putMark st m s).tu = { s.tu with marks := Table.set .none s.tu.marks st.toNat m } := rfl
@[simp] theorem putMark_choices (st : Station) (m : PairMark) : (putMark st m s).choices = s.choices := rfl
@[simp] theorem putMark_pending (st : Station) (m : PairMark) : (putMark st m s).pending = s.pending := rfl

/-! beginComputation -/

@[simp] theorem beginComputation_tp : (beginComputation s).tp = s.tp := rfl
@[simp] theorem beginComputation_ctu : (beginComputation s).ctu = s.ctu := rfl
@[simp] theorem beginComputation_su : (beginComputation s).su = s.su := rfl
@[simp] theorem beginComputation_dq : (beginComputation s).dq = s.dq := rfl
@[simp] theorem beginComputation_lc : (beginComputation s).lc = s.lc := rfl
@[simp] theorem beginComputation_ps : (beginComputation s).ps = s.ps := rfl
@[simp] theorem beginComputation_tu : (beginComputation s).tu = { s.tu with
      state := .computing, computing := some (computeInputs s), result := none } := rfl
@[simp] theorem beginComputation_choices : (beginComputation s).choices = s.choices := rfl
@[simp] theorem beginComputation_pending : (beginComputation s).pending = s.pending := rfl

/-! settleWaiting -/

@[simp] theorem settleWaiting_tp : (settleWaiting s).tp = s.tp := rfl
@[simp] theorem settleWaiting_ctu : (settleWaiting s).ctu = s.ctu := rfl
@[simp] theorem settleWaiting_su : (settleWaiting s).su = s.su := rfl
@[simp] theorem settleWaiting_dq : (settleWaiting s).dq = s.dq := rfl
@[simp] theorem settleWaiting_lc : (settleWaiting s).lc = s.lc := rfl
@[simp] theorem settleWaiting_ps : (settleWaiting s).ps = { s.ps with waiting := waitingNow s } := rfl
@[simp] theorem settleWaiting_tu : (settleWaiting s).tu = s.tu := rfl
@[simp] theorem settleWaiting_choices : (settleWaiting s).choices = s.choices := rfl
@[simp] theorem settleWaiting_pending : (settleWaiting s).pending = s.pending := rfl

/-! leaveWaiting -/

@[simp] theorem leaveWaiting_tp (w : WaitStep) : (leaveWaiting w s).tp = s.tp := rfl
@[simp] theorem leaveWaiting_ctu (w : WaitStep) : (leaveWaiting w s).ctu = s.ctu := rfl
@[simp] theorem leaveWaiting_su (w : WaitStep) : (leaveWaiting w s).su = s.su := rfl
@[simp] theorem leaveWaiting_dq (w : WaitStep) : (leaveWaiting w s).dq = s.dq := rfl
@[simp] theorem leaveWaiting_lc (w : WaitStep) : (leaveWaiting w s).lc = s.lc := rfl
@[simp] theorem leaveWaiting_ps (w : WaitStep) :
    (leaveWaiting w s).ps = { s.ps with waiting := s.ps.waiting.filter fun x => x.step != w } := rfl
@[simp] theorem leaveWaiting_tu (w : WaitStep) : (leaveWaiting w s).tu = s.tu := rfl
@[simp] theorem leaveWaiting_choices (w : WaitStep) : (leaveWaiting w s).choices = s.choices := rfl
@[simp] theorem leaveWaiting_pending (w : WaitStep) : (leaveWaiting w s).pending = s.pending := rfl

/-! putReceiver -/

@[simp] theorem putReceiver_tp (r : Receiver) : (putReceiver r s).tp = s.tp := rfl
@[simp] theorem putReceiver_ctu (r : Receiver) : (putReceiver r s).ctu = s.ctu := rfl
@[simp] theorem putReceiver_su (r : Receiver) : (putReceiver r s).su = s.su := rfl
@[simp] theorem putReceiver_dq (r : Receiver) : (putReceiver r s).dq = s.dq := rfl
@[simp] theorem putReceiver_lc (r : Receiver) : (putReceiver r s).lc = { s.lc with receiver := r } := rfl
@[simp] theorem putReceiver_ps (r : Receiver) : (putReceiver r s).ps = s.ps := rfl
@[simp] theorem putReceiver_tu (r : Receiver) : (putReceiver r s).tu = s.tu := rfl
@[simp] theorem putReceiver_choices (r : Receiver) : (putReceiver r s).choices = s.choices := rfl
@[simp] theorem putReceiver_pending (r : Receiver) : (putReceiver r s).pending = s.pending := rfl

/-! stopSending -/

@[simp] theorem stopSending_tp : (stopSending s).tp = s.tp := rfl
@[simp] theorem stopSending_ctu : (stopSending s).ctu = s.ctu := rfl
@[simp] theorem stopSending_su : (stopSending s).su = s.su := rfl
@[simp] theorem stopSending_dq : (stopSending s).dq = s.dq := rfl
@[simp] theorem stopSending_lc : (stopSending s).lc = { s.lc with sending := none } := rfl
@[simp] theorem stopSending_ps : (stopSending s).ps = s.ps := rfl
@[simp] theorem stopSending_tu : (stopSending s).tu = s.tu := rfl
@[simp] theorem stopSending_choices : (stopSending s).choices = s.choices := rfl
@[simp] theorem stopSending_pending : (stopSending s).pending = s.pending := rfl

/-! mapHead -/

@[simp] theorem mapHead_tp (f : TxFrame → TxFrame) (c : TxClass) : (mapHead f c s).tp = s.tp := rfl
@[simp] theorem mapHead_ctu (f : TxFrame → TxFrame) (c : TxClass) : (mapHead f c s).ctu = s.ctu := rfl
@[simp] theorem mapHead_su (f : TxFrame → TxFrame) (c : TxClass) : (mapHead f c s).su = s.su := rfl
@[simp] theorem mapHead_dq (f : TxFrame → TxFrame) (c : TxClass) : (mapHead f c s).dq = s.dq := rfl
@[simp] theorem mapHead_ps (f : TxFrame → TxFrame) (c : TxClass) : (mapHead f c s).ps = s.ps := rfl
@[simp] theorem mapHead_tu (f : TxFrame → TxFrame) (c : TxClass) : (mapHead f c s).tu = s.tu := rfl
@[simp] theorem mapHead_choices (f : TxFrame → TxFrame) (c : TxClass) : (mapHead f c s).choices = s.choices := rfl
@[simp] theorem mapHead_pending (f : TxFrame → TxFrame) (c : TxClass) : (mapHead f c s).pending = s.pending := rfl

/-! frameEnded -/

@[simp] theorem frameEnded_tp : (frameEnded s).tp = s.tp := rfl
@[simp] theorem frameEnded_ctu : (frameEnded s).ctu = s.ctu := rfl
@[simp] theorem frameEnded_su : (frameEnded s).su = s.su := rfl
@[simp] theorem frameEnded_dq : (frameEnded s).dq = s.dq := rfl
@[simp] theorem frameEnded_lc : (frameEnded s).lc = { s.lc with receiver := .counting } := rfl
@[simp] theorem frameEnded_ps : (frameEnded s).ps = s.ps := rfl
@[simp] theorem frameEnded_tu : (frameEnded s).tu = s.tu := rfl
@[simp] theorem frameEnded_choices : (frameEnded s).choices = s.choices := rfl
@[simp] theorem frameEnded_pending : (frameEnded s).pending = s.pending := rfl

end Sys2Proof.Machine
end

