-- ==== Sys2Proof/Laws/Table.lean ====
section
/-! SUPPORT. What reading and writing a sparse table do: a read after a write, the canonical form kept by every write. -/
namespace Sys2Proof.Machine

section Reads
variable {α : Type}

@[simp] theorem Table.find_nil (k : Nat) : Table.find ([] : Table α) k = none := rfl

theorem Table.find_cons (i : Nat) (v : α) (t : Table α) (k : Nat) :
    Table.find ((i, v) :: t) k = if i = k then some v else if k < i then none else Table.find t k := rfl

/-- The value just listed is found. -/
@[simp] theorem Table.find_put_self (t : Table α) (k : Nat) (v : α) : Table.find (Table.put t k v) k = some v := by
  induction t with
  | nil => simp [Table.put, Table.find]
  | cons e t ih =>
    obtain ⟨i, w⟩ := e
    simp only [Table.put]
    split_ifs with h1 h2
    · simp [Table.find]
    · simp [Table.find]
    · simp [Table.find, h1, h2, ih]

/-- Listing a value leaves every other index as it was. -/
theorem Table.find_put_of_ne (t : Table α) (k j : Nat) (v : α) (h : j ≠ k) :
    Table.find (Table.put t k v) j = Table.find t j := by
  induction t with
  | nil => simp [Table.put, Table.find, Ne.symm h]
  | cons e t ih =>
    obtain ⟨i, w⟩ := e
    simp only [Table.put]
    split_ifs with h1 h2
    · subst h1; simp [Table.find, Ne.symm h]
    · simp only [Table.find]; split_ifs <;> first | rfl | omega
    · simp only [Table.find, ih]

/-- The indices of a rising table all lie at or above its bound. -/
theorem Table.risesFrom_le {n m : Nat} {t : Table α} (h : Table.risesFrom n t = true) (hm : m ≤ n) :
    Table.risesFrom m t = true := by
  cases t with
  | nil => rfl
  | cons e t => obtain ⟨i, w⟩ := e; simp [Table.risesFrom] at h ⊢; exact ⟨by omega, h.2⟩

/-- Below its bound a rising table lists nothing. -/
theorem Table.find_of_lt {n k : Nat} {t : Table α} (h : Table.risesFrom n t = true) (hk : k < n) :
    Table.find t k = none := by
  cases t with
  | nil => rfl
  | cons e t =>
    obtain ⟨i, w⟩ := e
    simp [Table.risesFrom] at h
    rw [Table.find_cons, if_neg (by omega), if_pos (by omega)]

theorem Table.find_drop_self_from {n : Nat} (t : Table α) (k : Nat) (h : Table.risesFrom n t = true) :
    Table.find (Table.drop t k) k = none := by
  induction t generalizing n with
  | nil => rfl
  | cons e t ih =>
    obtain ⟨i, w⟩ := e
    simp [Table.risesFrom] at h
    simp only [Table.drop]
    split_ifs with h1 h2
    · exact Table.find_of_lt h.2 (by omega)
    · rw [Table.find_cons, if_neg h1, if_pos h2]
    · rw [Table.find_cons, if_neg h1, if_neg h2]; exact ih h.2

/-- An index removed from a rising table is not found. -/
theorem Table.find_drop_self (t : Table α) (k : Nat) (h : Table.rises t = true) :
    Table.find (Table.drop t k) k = none := Table.find_drop_self_from t k h

theorem Table.find_drop_of_ne_from {n : Nat} (t : Table α) (k j : Nat) (h : Table.risesFrom n t = true) (hj : j ≠ k) :
    Table.find (Table.drop t k) j = Table.find t j := by
  induction t generalizing n with
  | nil => rfl
  | cons e t ih =>
    obtain ⟨i, w⟩ := e
    simp [Table.risesFrom] at h
    simp only [Table.drop]
    split_ifs with h1 h2
    · subst h1
      rw [Table.find_cons, if_neg (Ne.symm hj)]
      split_ifs with h3
      · exact Table.find_of_lt h.2 (by omega)
      · rfl
    · rfl
    · rw [Table.find_cons, Table.find_cons, ih h.2]

/-- Removing an index of a rising table leaves every other index as it was. -/
theorem Table.find_drop_of_ne (t : Table α) (k j : Nat) (h : Table.rises t = true) (hj : j ≠ k) :
    Table.find (Table.drop t k) j = Table.find t j := Table.find_drop_of_ne_from t k j h hj

@[simp] theorem Table.get_nil (d : α) (k : Nat) : Table.get d [] k = d := rfl

/-- The value just written is read. -/
theorem Table.get_set_self [DecidableEq α] (d : α) (t : Table α) (k : Nat) (v : α) (h : Table.rises t = true) :
    Table.get d (Table.set d t k v) k = v := by
  unfold Table.set Table.get
  split_ifs with hv
  · rw [Table.find_drop_self t k h, hv]; rfl
  · rw [Table.find_put_self]; rfl

/-- A write leaves every other index as it was. -/
theorem Table.get_set_of_ne [DecidableEq α] (d : α) (t : Table α) (k j : Nat) (v : α) (h : Table.rises t = true)
    (hj : j ≠ k) : Table.get d (Table.set d t k v) j = Table.get d t j := by
  unfold Table.set Table.get
  split_ifs with hv
  · rw [Table.find_drop_of_ne t k j h hj]
  · rw [Table.find_put_of_ne t k j v hj]

/-- The value just listed is read, whatever the table. -/
theorem Table.get_put_self (d : α) (t : Table α) (k : Nat) (v : α) : Table.get d (Table.put t k v) k = v := by
  simp [Table.get]

end Reads

section Form
variable {α : Type}

theorem Table.risesFrom_put {n : Nat} (t : Table α) (k : Nat) (v : α) (h : Table.risesFrom n t = true) (hk : n ≤ k) :
    Table.risesFrom n (Table.put t k v) = true := by
  induction t generalizing n with
  | nil => simp [Table.put, Table.risesFrom, hk]
  | cons e t ih =>
    obtain ⟨i, w⟩ := e
    simp [Table.risesFrom] at h
    simp only [Table.put]
    split_ifs with h1 h2
    · subst h1; simp [Table.risesFrom, hk, h.2]
    · simp [Table.risesFrom, hk, h.2]; omega
    · simp [Table.risesFrom, h.1]; exact ih h.2 (by omega)

/-- Listing a value keeps the indices rising. -/
theorem Table.rises_put {t : Table α} (k : Nat) (v : α) (h : Table.rises t = true) :
    Table.rises (Table.put t k v) = true := Table.risesFrom_put t k v h (Nat.zero_le k)

theorem Table.risesFrom_drop {n : Nat} (t : Table α) (k : Nat) (h : Table.risesFrom n t = true) :
    Table.risesFrom n (Table.drop t k) = true := by
  induction t generalizing n with
  | nil => rfl
  | cons e t ih =>
    obtain ⟨i, w⟩ := e
    have h0 := h
    simp [Table.risesFrom] at h
    simp only [Table.drop]
    split_ifs with h1 h2
    · exact Table.risesFrom_le h.2 (by omega)
    · exact h0
    · simp [Table.risesFrom, h.1]; exact ih h.2

/-- Removing an index keeps the indices rising. -/
theorem Table.rises_drop {t : Table α} (k : Nat) (h : Table.rises t = true) : Table.rises (Table.drop t k) = true :=
  Table.risesFrom_drop t k h

/-- A write keeps the indices rising. -/
theorem Table.rises_set [DecidableEq α] {t : Table α} (d : α) (k : Nat) (v : α) (h : Table.rises t = true) :
    Table.rises (Table.set d t k v) = true := by
  unfold Table.set; split_ifs
  · exact Table.rises_drop k h
  · exact Table.rises_put k v h

theorem Table.all_put (p : Nat × α → Bool) (t : Table α) (k : Nat) (v : α) (h : t.all p = true) (hv : p (k, v) = true) :
    (Table.put t k v).all p = true := by
  induction t with
  | nil => simp [Table.put, hv]
  | cons e t ih =>
    obtain ⟨i, w⟩ := e
    simp only [List.all_cons, Bool.and_eq_true] at h
    simp only [Table.put]
    split_ifs
    · simp only [List.all_cons, hv, h.2, Bool.and_self]
    · simp only [List.all_cons, hv, h.1, h.2, Bool.and_self]
    · simp only [List.all_cons, h.1, ih h.2, Bool.and_self]

theorem Table.all_drop (p : Nat × α → Bool) (t : Table α) (k : Nat) (h : t.all p = true) :
    (Table.drop t k).all p = true := by
  induction t with
  | nil => rfl
  | cons e t ih =>
    obtain ⟨i, w⟩ := e
    simp only [List.all_cons, Bool.and_eq_true] at h
    simp only [Table.drop]
    split_ifs
    · exact h.2
    · simp only [List.all_cons, h.1, h.2, Bool.and_self]
    · simp only [List.all_cons, h.1, ih h.2, Bool.and_self]

/-- A table in canonical form has rising indices. -/
theorem Table.rises_of_wf [DecidableEq α] {d : α} {t : Table α} (h : Table.wf d t = true) : Table.rises t = true := by
  unfold Table.wf at h; exact (Bool.and_eq_true _ _ ▸ h).1

/-- A write keeps the canonical form. -/
theorem Table.wf_set [DecidableEq α] {d : α} {t : Table α} (k : Nat) (v : α) (h : Table.wf d t = true) :
    Table.wf d (Table.set d t k v) = true := by
  unfold Table.wf at h ⊢
  rw [Bool.and_eq_true] at h ⊢
  refine ⟨Table.rises_set d k v h.1, ?_⟩
  unfold Table.set; split_ifs with hv
  · exact Table.all_drop _ t k h.2
  · exact Table.all_put _ t k v h.2 (by simpa using hv)

/-- The empty table is in canonical form. -/
@[simp] theorem Table.wf_nil [DecidableEq α] (d : α) : Table.wf d ([] : Table α) = true := rfl

end Form

/-- A table whose indices rise and lie below n lists at most n entries. -/
theorem Table.length_le {α : Type} : ∀ (t : Table α) (m n : Nat), Table.risesFrom m t = true → (∀ e ∈ t, e.1 < n) →
    t.length ≤ n - m
  | [], _, _, _, _ => by simp
  | (i, v) :: t, m, n, h, hb => by
    unfold Table.risesFrom at h
    simp only [Bool.and_eq_true, decide_eq_true_eq] at h
    have h1 := hb (i, v) (by simp)
    have h2 := Table.length_le t (i + 1) n h.2 (fun e he => hb e (by simp [he]))
    simp only [List.length_cons] at *
    omega


end Sys2Proof.Machine
end

