-- ==== Sys2Proof/Laws/Slots.lean ====
section
/-! SUPPORT. What the shared operations of the slots and of the frames received do, once: who takes a granted write-queue
place, a slot's outcome with and without a pending step, a complete frame heard (R66, R81, R84, R117 to R120, R126). -/
namespace Sys2Proof.Machine
open Safety

/-! ### Reads after writes -/

@[simp] theorem slotAt_putSlot_self (n : Nat) (sl : Slot) (s : State) : slotAt (putSlot n sl s) n = some sl :=
  Table.find_put_self _ _ _

theorem slotAt_putSlot_of_ne (n m : Nat) (sl : Slot) (s : State) (h : m ≠ n) :
    slotAt (putSlot n sl s) m = slotAt s m := Table.find_put_of_ne _ _ _ _ h

/-- A slot reads the same in states with the same Slot Unit. -/
theorem slotAt_congr {s t : State} (h : t.su.slots = s.su.slots) (n : Nat) : slotAt t n = slotAt s n := by
  unfold slotAt; rw [h]

/-- One slot written: that slot alone is changed. -/
theorem oneSlot_of_put {s t : State} {n : Nat} {sl : Slot} (h : t.su.slots = Table.put s.su.slots n sl) :
    oneSlot s t n (some sl) := by
  refine ⟨by unfold slotAt; rw [h]; exact Table.find_put_self _ _ _, fun m hm => ?_⟩
  unfold slotAt; rw [h]; exact Table.find_put_of_ne _ _ _ _ hm

/-! ### The waiting order -/

/-- Only a ready step that holds a place is made (R126). -/
theorem granted_held {s : State} {w : WaitStep} (h : granted s = some w) :
    stepReady s w = true ∧ ∃ x ∈ s.ps.waiting, x.step = w ∧ x.held = true := by
  unfold granted at h
  obtain ⟨x, hx, rfl⟩ := Option.map_eq_some_iff.1 h
  have hp := List.find?_some hx
  simp only [Bool.and_eq_true] at hp
  exact ⟨hp.2, x, List.mem_of_find?_eq_some hx, rfl, hp.1⟩

/-- A step that is made is ready (R126). -/
theorem granted_ready {s : State} {w : WaitStep} (h : granted s = some w) : stepReady s w = true := (granted_held h).1

/-- A step that leaves the waiting order gives its place up (R126). -/
theorem heldPlaces_leave {l : List Waiting} {x : Waiting} (hx : x ∈ l) (hh : x.held = true) :
    heldPlaces (l.filter fun y => y.step != x.step) + 1 ≤ heldPlaces l := by
  induction l with
  | nil => cases hx
  | cons y l ih =>
    have hsub := List.Sublist.countP_le (p := fun z : Waiting => z.held)
      (List.filter_sublist (p := fun z : Waiting => z.step != x.step) (l := l))
    unfold heldPlaces at *
    rcases List.mem_cons.1 hx with rfl | hx
    · simp only [List.filter_cons, bne_self_eq_false, Bool.false_eq_true, if_false, List.countP_cons, hh, if_true]
      omega
    · have := ih hx
      simp only [List.filter_cons, List.countP_cons]
      split_ifs <;> simp_all

/-- Places given never exceed the free ones (R126). -/
theorem heldPlaces_give (s : State) : ∀ (n : Nat) (l : List Waiting), heldPlaces (givePlaces s n l) ≤ heldPlaces l + n
  | _, [] => by unfold givePlaces heldPlaces; simp
  | 0, w :: l => by unfold givePlaces; simp
  | n + 1, w :: l => by
    have h1 := heldPlaces_give s n l
    have h2 := heldPlaces_give s (n + 1) l
    unfold givePlaces
    unfold heldPlaces at *
    split_ifs with h
    · simp only [Bool.and_eq_true, Bool.not_eq_true'] at h
      simp only [List.countP_cons, if_true, h.1, Bool.false_eq_true, if_false]; omega
    · simp only [List.countP_cons]; omega

theorem isGranted_iff (s : State) (w : WaitStep) : isGranted s w = true ↔ granted s = some w := by simp [isGranted]

/-- A slot without a pending step is granted no place. -/
theorem isGranted_slot_of_none {s : State} {n : Nat} (h : pendingOf s n = none) : isGranted s (.slot n) = false := by
  by_contra hc
  have hg := (isGranted_iff s _).1 (by simpa using hc)
  have := granted_ready hg
  simp [stepReady, stepStands, h] at this

/-- With nothing pending, nothing is made: the waiting order alone is brought up to date. -/
theorem trySlot_of_none {s : State} {n : Nat} (h : pendingOf s n = none) : trySlot n s = settleWaiting s := by
  unfold trySlot stepIfGranted
  have : pendingOf (settleWaiting s) n = none := h
  rw [isGranted_slot_of_none this]; simp

/-- A slot's cause taken: its step waits, or is made in the place granted to it (R81, R126). -/
theorem trySlot_cases (n : Nat) (s : State) :
    granted (settleWaiting s) ≠ some (.slot n) ∧ trySlot n s = settleWaiting s ∨
      granted (settleWaiting s) = some (.slot n) ∧
        trySlot n s = settleWaiting (performSlotStep n (leaveWaiting (.slot n) (settleWaiting s))) := by
  unfold trySlot stepIfGranted
  split_ifs with h
  · exact .inr ⟨(isGranted_iff _ _).1 h, rfl⟩
  · exact .inl ⟨fun hg => h ((isGranted_iff _ _).2 hg), rfl⟩

/-- After a slot has ended nothing of it is pending. -/
theorem pendingOf_endSlot (n : Nat) (sl : Slot) (m : Notice) (s : State) : pendingOf (endSlot n sl m s) n = none := by
  show ((Table.find (Table.put s.su.slots n (notifying sl)) n).bind fun x => x.pending) = none
  rw [Table.find_put_self]; rfl

/-- A slot ended: NOTIFYING, its terminal notice due, nothing else changed. -/
theorem ended_of_endSlot (n : Nat) (sl : Slot) (m : Notice) (s : State) :
    ended s (settleWaiting (settleWaiting (endSlot n sl m s))) n sl m := by
  refine ⟨oneSlot_of_put rfl, rfl, ?_⟩
  rfl

/-! ### Frames received -/

theorem hearing_up {s : State} (h : hearing s = true) : isUp s = true := by
  simp [hearing, lineOn] at h; exact h.1.1.1

/-- A complete frame heard and taken is delivered, the receiver counting (R117 to R119). -/
theorem completeFields_of_hears {s : State} {src dst : Station} {b : Body} (h : hears s src dst b) :
    completeFields src dst b s = .next (settleWaiting (deliver src b (frameEnded s))) := by
  obtain ⟨hh, hl, ha, hs, hd, hr⟩ := h
  have e : takenFrame src dst b (frameEnded s) = deliver src b (frameEnded s) := by
    unfold takenFrame
    have h1 : ¬ src = ownStation (frameEnded s) := hs
    have h2 : ¬ (dst ≠ ownStation (frameEnded s) ∧ dst ≠ 63) := by
      rintro ⟨a, c⟩; rcases hd with d | d
      · exact a d
      · exact c d
    have h3 : ¬ Config.received ≤ (frameEnded s).lc.rx.length := by
      show ¬ 16 ≤ s.lc.rx.length; omega
    rw [if_neg h1, if_neg h2, if_neg h3]
  simp [completeFields, completeFrame, hh, hl, ha, e]

/-- An answer a slot takes goes to that slot (R120). -/
theorem offerAnswer_of_slot {s : State} {src : Station} {b : Body} {n : Nat} {sl : Slot}
    (h : slotTaking s src b = some (n, sl)) : offerAnswer src b s = trySlot n (slotAnswer n sl b s) := by
  simp [offerAnswer, h]

/-- An answer no slot takes goes to the Deferred Queue when its SENT entry takes it (R120). -/
theorem offerAnswer_of_entry {s : State} {src : Station} {b : Body} {e : DeferredEntry}
    (h : slotTaking s src b = none) (h2 : dqTaking s src b = some e) : offerAnswer src b s = dqAnswer e b s := by
  simp [offerAnswer, h, h2]

/-- An answer nobody takes is discarded (R120). -/
theorem offerAnswer_of_none {s : State} {src : Station} {b : Body} (h : slotTaking s src b = none)
    (h2 : dqTaking s src b = none) : offerAnswer src b s = s := by
  simp [offerAnswer, h, h2]

/-- What the slot and queue that take an answer are does not depend on the receiver. -/
@[simp] theorem slotTaking_frameEnded (s : State) (src : Station) (b : Body) :
    slotTaking (frameEnded s) src b = slotTaking s src b := rfl
@[simp] theorem dqTaking_frameEnded (s : State) (src : Station) (b : Body) :
    dqTaking (frameEnded s) src b = dqTaking s src b := rfl

/-! ### Filings (R82, R83) -/

/-- Everything a filing can change outside the write queue: the late-filing event, the pair lines of the home, its mark, and the
round's computation (R82, R83, R150). -/
theorem fileActor_only (home : Station) (p : FilePos) (amount : Nat) (day : Day) (s : State) :
    (fileActor home p amount day s).1 = { s with
      tp := { s.tp with events := (fileActor home p amount day s).1.tp.events }
      tu := { s.tu with
        live := (fileActor home p amount day s).1.tu.live, closing := (fileActor home p amount day s).1.tu.closing
        marks := (fileActor home p amount day s).1.tu.marks, state := (fileActor home p amount day s).1.tu.state
        computing := (fileActor home p amount day s).1.tu.computing
        result := (fileActor home p amount day s).1.tu.result
        revised := (fileActor home p amount day s).1.tu.revised } } := by
  unfold fileActor
  cases filePlace s home day <;> simp only [reduceCtorEq, if_true, if_false]
  split_ifs <;> try rfl
  unfold restartComputation
  simp only [putMark_tu, setEvent_tu]
  cases s.tu.state <;> rfl

/-- A computation's restart leaves the pair tables as they are. -/
theorem restartComputation_tables (s : State) : (restartComputation s).tu.live = s.tu.live ∧
    (restartComputation s).tu.closing = s.tu.closing ∧ (restartComputation s).tu.marks = s.tu.marks := by
  unfold restartComputation; cases h : s.tu.state <;> exact ⟨rfl, rfl, rfl⟩

/-- A filing changes pair lines of the home alone. -/
theorem fileActor_lines (home : Station) (p : FilePos) (amount : Nat) (day : Day) (s : State)
    (hl : Table.rises s.tu.live = true) (hc : Table.rises s.tu.closing = true) (x : Station) (hx : x ≠ home) :
    liveLine (fileActor home p amount day s).1 x = liveLine s x ∧
      closingLine (fileActor home p amount day s).1 x = closingLine s x := by
  have hn : x.toNat ≠ home.toNat := fun h => hx (BitVec.eq_of_toNat_eq h)
  have key : ∀ t : State, (t.tu.live = s.tu.live ∨ ∃ l, t.tu.live = Table.set blankLine s.tu.live home.toNat l) →
      (t.tu.closing = s.tu.closing ∨ ∃ l, t.tu.closing = Table.set blankLine s.tu.closing home.toNat l) →
      liveLine t x = liveLine s x ∧ closingLine t x = closingLine s x := by
    intro t h1 h2
    unfold liveLine closingLine
    constructor
    · rcases h1 with h | ⟨l, h⟩ <;> rw [h]
      exact Table.get_set_of_ne _ _ _ _ _ hl hn
    · rcases h2 with h | ⟨l, h⟩ <;> rw [h]
      exact Table.get_set_of_ne _ _ _ _ _ hc hn
  apply key
  · unfold fileActor
    cases filePlace s home day <;> simp only [reduceCtorEq, if_true, if_false]
    · exact .inr ⟨_, rfl⟩
    · exact .inl trivial
    · split_ifs <;> first | exact .inr ⟨_, rfl⟩ | exact .inr ⟨_, (restartComputation_tables _).1⟩
  · unfold fileActor
    cases filePlace s home day <;> simp only [reduceCtorEq, if_true, if_false]
    · exact .inl trivial
    · exact .inr ⟨_, rfl⟩
    · split_ifs <;> first | exact .inl rfl | exact .inl (restartComputation_tables _).2.1

/-- What a filing gives the Till Port, the Tally Unit and its record depends on those two blocks alone. -/
theorem fileActor_congr {s u : State} (htp : u.tp = s.tp) (htu : u.tu = s.tu) (home : Station) (p : FilePos) (amount : Nat)
    (day : Day) : (fileActor home p amount day u).2 = (fileActor home p amount day s).2 ∧
      (fileActor home p amount day u).1.tp = (fileActor home p amount day s).1.tp ∧
      (fileActor home p amount day u).1.tu = (fileActor home p amount day s).1.tu := by
  obtain ⟨tp, ctu, su, dq, lc, ps, tu, ch, pe⟩ := s
  obtain ⟨tp', ctu', su', dq', lc', ps', tu', ch', pe'⟩ := u
  simp only at htp htu
  subst htp htu
  have e : filePlace (⟨tp', ctu', su', dq', lc', ps', tu', ch', pe'⟩ : State) home day =
      filePlace (⟨tp', ctu, su, dq, lc, ps, tu', ch, pe⟩ : State) home day := rfl
  unfold fileActor
  rw [e]
  cases filePlace (⟨tp', ctu, su, dq, lc, ps, tu', ch, pe⟩ : State) home day
  · exact ⟨rfl, rfl, rfl⟩
  · exact ⟨rfl, rfl, rfl⟩
  · simp only [reduceCtorEq, if_false]
    by_cases h1 : tu'.round.day.isSome = true
    · simp only [setEvent, h1, if_true]
      refine ⟨rfl, ?_⟩
      by_cases h2 : markOf (⟨tp', ctu, su, dq, lc, ps, tu', ch, pe⟩ : State) home ≠ .disputed ∧
          isMember (⟨tp', ctu, su, dq, lc, ps, tu', ch, pe⟩ : State) home = true
      · have h3 : markOf (⟨tp', ctu', su', dq', lc', ps', tu', ch', pe'⟩ : State) home ≠ .disputed ∧
          isMember (⟨tp', ctu', su', dq', lc', ps', tu', ch', pe'⟩ : State) home = true := h2
        rw [if_pos h2, if_pos h3]
        unfold restartComputation putMark
        cases hs : tu'.state <;> exact ⟨rfl, rfl⟩
      · have h3 : ¬ (markOf (⟨tp', ctu', su', dq', lc', ps', tu', ch', pe'⟩ : State) home ≠ .disputed ∧
          isMember (⟨tp', ctu', su', dq', lc', ps', tu', ch', pe'⟩ : State) home = true) := h2
        rw [if_neg h2, if_neg h3]
        exact ⟨rfl, rfl⟩
    · simp only [setEvent, h1, Bool.false_eq_true, if_false]
      refine ⟨?_, ?_, ?_⟩ <;> first | rfl | trivial

/-- A slot's filing decided: its record is made where a free place goes to it, else it waits (R81, R82). -/
theorem filing_of_fileStep (n : Nat) (sl : Slot) (pos : FilePos) (amount : Nat) (day : Option Day) (m : Notice) (s : State) :
    filingOutcome s (settleWaiting (trySlot n (fileStep n sl pos amount day m (frameEnded s)))) n sl pos amount day m ∧
      filingOnly s (settleWaiting (trySlot n (fileStep n sl pos amount day m (frameEnded s)))) n sl := by
  set w : Slot := { notifying sl with pending := some (.file pos amount day m) } with hw
  set u : State := fileStep n sl pos amount day m (frameEnded s) with hu
  have hg : slotWaits s (countingLc s) n w = settleWaiting u := rfl
  unfold filingOutcome
  rw [← hw]
  simp only []
  rw [hg]
  rcases trySlot_cases n u with ⟨hn, h⟩ | ⟨hg, h⟩
  · rw [h, if_neg hn]
    have h1 : oneSlot s (settleWaiting (settleWaiting u)) n (some w) := oneSlot_of_put rfl
    exact ⟨⟨h1, rfl, rfl⟩, h1.2, fun _ _ x _ => ⟨rfl, rfl⟩, rfl, rfl⟩
  · rw [h, if_pos hg]
    set v : State := leaveWaiting (.slot n) (settleWaiting u) with hv
    have hs : slotAt v n = some w := slotAt_putSlot_self n w (frameEnded s)
    have hp : performSlotStep n v = makeRecord (fileActor (cardHome w.card) pos amount (day.getD (liveDay v)) v).2
        [.slotNotice n { m with day := day.getD (liveDay v) }]
        (putSlot n { w with pending := none } (fileActor (cardHome w.card) pos amount (day.getD (liveDay v)) v).1) := by
      unfold performSlotStep; rw [hs]
    rw [hp]
    obtain ⟨c1, c2, c3⟩ := fileActor_congr (s := s) (u := v) rfl rfl (cardHome w.card) pos amount (day.getD (liveDay v))
    have hf := fileActor_only (cardHome w.card) pos amount (day.getD (liveDay v)) v
    have hl := fileActor_lines (cardHome w.card) pos amount (day.getD (liveDay v)) v
    change _ = (fileActor (cardHome sl.card) pos amount (day.getD (liveDay s)) s).2 at c1
    change _ = (fileActor (cardHome sl.card) pos amount (day.getD (liveDay s)) s).1.tp at c2
    change _ = (fileActor (cardHome sl.card) pos amount (day.getD (liveDay s)) s).1.tu at c3
    set f := fileActor (cardHome w.card) pos amount (day.getD (liveDay v)) v
    set g := fileActor (cardHome sl.card) pos amount (day.getD (liveDay s)) s
    have hps : f.1.ps = v.ps := by rw [hf]
    have hsu : f.1.su = v.su := by rw [hf]
    have b1 : oneSlot s (settleWaiting (settleWaiting (makeRecord f.2 [.slotNotice n { m with day := day.getD (liveDay v) }]
        (putSlot n { w with pending := none } f.1)))) n (some (notifying sl)) := by
      refine ⟨slotAt_putSlot_self n (notifying sl) f.1, fun k hk => ?_⟩
      refine (slotAt_putSlot_of_ne n k { w with pending := none } f.1 hk).trans ?_
      rw [slotAt_congr (s := v) (by rw [hsu])]
      exact slotAt_putSlot_of_ne n k w (frameEnded s) hk
    have a2 : f.1.ctu = s.ctu := by rw [hf]; rfl
    have a3 : f.1.su.due = s.su.due := by rw [hf]; rfl
    have a4 : f.1.su.tagSeq = s.su.tagSeq := by rw [hf]; rfl
    have a5 : f.1.dq = s.dq := by rw [hf]; rfl
    have a6 : f.1.lc = countingLc s := by rw [hf]; rfl
    have a7 : f.1.choices = s.choices := by rw [hf]; rfl
    have a8 : f.1.pending = s.pending := by rw [hf]; rfl
    have b2 : ∀ x, Su.mk x f.1.su.due f.1.su.tagSeq = Su.mk x s.su.due s.su.tagSeq := by intro x; rw [a3, a4]
    refine ⟨⟨b1, ?_, State.ext c2 a2 (b2 _) a5 a6 rfl c3 a7 a8⟩, b1.2, fun h1 h2 x hx => hl h1 h2 x hx, ?_, ?_⟩
    · unfold oneRecord
      rw [← c1]
      show Ps.mk f.1.ps.store (f.1.ps.queue ++ _) (if f.1.ps.queue.isEmpty then _ else f.1.ps.timer) _ = _
      rw [hps]; rfl
    · show f.1.ps.store = _
      rw [hps]; rfl
    · have a1 : f.1.tp = { s.tp with events := f.1.tp.events } := by rw [hf]; rfl
      have a9 : f.1.tu = { s.tu with
          live := f.1.tu.live, closing := f.1.tu.closing, marks := f.1.tu.marks, state := f.1.tu.state
          computing := f.1.tu.computing, result := f.1.tu.result, revised := f.1.tu.revised } := by rw [hf]; rfl
      exact State.ext a1 a2 (b2 _) a5 a6 rfl a9 a7 a8

/-! ### Deferred entries and offline decisions (R72, R73, R76) -/

/-- A CLAIMING slot's deferred entry decided: it is made where a free place goes to it, else it waits (R76, R81). -/
theorem entry_of_waitStep (s : State) (lc : Lc) (n : Nat) (sl : Slot) (step : SlotStep) (e : DeferredEntry)
    (h : step = .deferLate ∧ e = ⟨.post, .late, sl.card, sl.check, sl.amount, sl.tag, none, liveDay s, false, 0⟩ ∨
      step = .deferRetry ∧
        e = ⟨.claimRetry, .none, sl.card, sl.check, sl.amount, sl.tag, sl.hold.map (·.1), liveDay s, false, 0⟩) :
    entryOutcome s (settleWaiting (trySlot n (waitStep n sl step { s with lc := lc }))) lc n sl step e := by
  set u : State := waitStep n sl step { s with lc := lc } with hu
  have hw : slotWaits s lc n { sl with reply := none, pending := some step } = settleWaiting u := rfl
  unfold entryOutcome
  simp only []
  rw [hw]
  rcases trySlot_cases n u with ⟨hn, ht⟩ | ⟨hg, ht⟩
  · rw [ht, if_neg hn]
    exact ⟨oneSlot_of_put rfl, rfl, rfl⟩
  · rw [ht, if_pos hg]
    have hs : slotAt (leaveWaiting (.slot n) (settleWaiting u)) n = some { sl with reply := none, pending := some step } :=
      slotAt_putSlot_self n _ _
    set v : State := leaveWaiting (.slot n) (settleWaiting u) with hv
    have hp : performSlotStep n v = joinEntry n { sl with reply := none, pending := some step } e
        { plainNotice sl.tag sl.card .captureDeferred with amountA := sl.amount } v := by
      unfold performSlotStep; rw [hs]
      rcases h with ⟨rfl, rfl⟩ | ⟨rfl, rfl⟩ <;> rfl
    rw [hp]
    refine ⟨rfl, ⟨slotAt_putSlot_self n _ _, fun k hk => ?_⟩, rfl, rfl⟩
    exact (slotAt_putSlot_of_ne n k _ v hk).trans (slotAt_putSlot_of_ne n k _ { s with lc := lc } hk)

/-- The offline decision of a slot decided: it is made where a free place goes to it, else it waits (R72, R73, R81). -/
theorem offline_of_waitStep (s : State) (lc : Lc) (n : Nat) (sl : Slot) :
    offlineOutcome s (settleWaiting (trySlot n (waitStep n sl .offline { s with lc := lc }))) lc n sl := by
  set u : State := waitStep n sl .offline { s with lc := lc } with hu
  have hw : slotWaits s lc n { sl with reply := none, pending := some .offline } = settleWaiting u := rfl
  unfold offlineOutcome
  simp only []
  rw [hw]
  rcases trySlot_cases n u with ⟨hn, ht⟩ | ⟨hg, ht⟩
  · rw [ht, if_neg hn]
    exact ⟨oneSlot_of_put rfl, rfl, rfl⟩
  · rw [ht, if_pos hg]
    have hs : slotAt (leaveWaiting (.slot n) (settleWaiting u)) n = some { sl with reply := none, pending := some .offline } :=
      slotAt_putSlot_self n _ _
    set v : State := leaveWaiting (.slot n) (settleWaiting u) with hv
    have hf : offlineFails v { sl with reply := none, pending := some .offline } = offlineFails s sl := rfl
    have hp : performSlotStep n v = match offlineFails s sl with
        | some r => endSlot n { sl with reply := none, pending := some .offline }
            { slotNotice sl .noAnswer with reason := r } v
        | none => joinEntry n { sl with reply := none, pending := some .offline }
            (entryOf v sl .post .offline none) { slotNotice sl .offlineAccepted with amountA := sl.amount } v := by
      unfold performSlotStep; rw [hs]; simp only [hf]; rfl
    rw [hp]
    cases offlineFails s sl with
    | some r =>
      refine ⟨⟨slotAt_putSlot_self n _ _, fun k hk => ?_⟩, rfl, rfl⟩
      exact (slotAt_putSlot_of_ne n k _ v hk).trans (slotAt_putSlot_of_ne n k _ { s with lc := lc } hk)
    | none =>
      refine ⟨rfl, ⟨slotAt_putSlot_self n _ _, fun k hk => ?_⟩, rfl, rfl⟩
      exact (slotAt_putSlot_of_ne n k _ v hk).trans (slotAt_putSlot_of_ne n k _ { s with lc := lc } hk)

end Sys2Proof.Machine
end

