-- ==== Sys2Proof/Laws/Deferred.lean ====
section
/-! SUPPORT. What the Deferred Queue's steps do, once: the change of the SENT entry waits or is made with its record, and the
back-off lines (R91, R94 to R99, R126). -/
namespace Sys2Proof.Machine
open Safety

/-- One back-off line written: that line alone is changed. -/
theorem oneBackoff_of_set {s t : State} {home : Station} {b : BackoffLine} (h : Table.rises s.dq.backoff = true)
    (e : t.dq.backoff = Table.set blankBackoff s.dq.backoff home.toNat b) : oneBackoff s t home b := by
  refine ⟨by unfold backoffOf; rw [e]; exact Table.get_set_self _ _ _ _ h, fun x hx => ?_⟩
  unfold backoffOf; rw [e]
  exact Table.get_set_of_ne _ _ _ _ _ h (fun hn => hx (BitVec.eq_of_toNat_eq hn))

/-- The change of the SENT entry decided: it waits, or is made in the place granted to it (R95, R126). -/
theorem dqDecide_cases (step : DqStep) (s : State) :
    granted (dqWaits s s.lc s.dq.backoff step) ≠ some .dqPending ∧ dqDecide step s = dqWaits s s.lc s.dq.backoff step ∨
      granted (dqWaits s s.lc s.dq.backoff step) = some .dqPending ∧
        dqDecide step s =
          settleWaiting (performDqStep (leaveWaiting .dqPending (dqWaits s s.lc s.dq.backoff step))) := by
  have e : dqWaits s s.lc s.dq.backoff step =
    settleWaiting { s with dq := { s.dq with reply := none, pending := some step } } := rfl
  unfold dqDecide dqStepIfGranted
  rw [e]
  split_ifs with h
  · exact .inr ⟨(isGranted_iff _ _).1 h, rfl⟩
  · exact .inl ⟨fun hg => h ((isGranted_iff _ _).2 hg), rfl⟩

/-- The area a pending step leaves, the filing that goes with it, and the dependents of its record (R94 to R99). -/
def stepEffect (s : State) (e : DeferredEntry) : DqStep → DeferredArea × (State × List AreaUpdate) × List Dependent
  | .backToWaiting => ({ s.dq.area with entries := mapSent backToWaiting s.dq.area.entries }, (s, []), [])
  | .convert => ({ s.dq.area with entries := mapSent converted s.dq.area.entries }, (s, []), [])
  | .remove filed day loss =>
    (removeSent s.dq.area e, takenFiling s (cardHome e.card) filed day, (loss.map fun n => Dependent.loss n).toList)

/-- The change of the SENT entry decided: it waits, or is made with its one record; no other block but those of a filing is
changed (R94 to R99). -/
theorem dqDecide_outcome (s : State) (e : DeferredEntry) (he : sentEntry s = some e) (step : DqStep) :
    dqOutcome s (settleWaiting (dqDecide step s)) s.lc step (stepEffect s e step).1 (stepEffect s e step).2.1
        (stepEffect s e step).2.2 ∧ (settleWaiting (dqDecide step s)).dq.backoff = s.dq.backoff := by
  rcases dqDecide_cases step s with ⟨hn, h⟩ | ⟨hg, h⟩
  · rw [h]
    refine ⟨?_, rfl⟩
    unfold dqOutcome
    rw [if_neg (by exact hn)]
    exact ⟨rfl, rfl, rfl⟩
  · rw [h]
    have hs : sentEntry (leaveWaiting .dqPending (dqWaits s s.lc s.dq.backoff step)) = some e := he
    have hp : (leaveWaiting .dqPending (dqWaits s s.lc s.dq.backoff step)).dq.pending = some step := rfl
    set v := leaveWaiting .dqPending (dqWaits s s.lc s.dq.backoff step) with hv
    cases step with
    | backToWaiting =>
      have hr : performDqStep v = makeRecord [.deferred { s.dq.area with entries := mapSent backToWaiting s.dq.area.entries }]
          [] (putDeferred { s.dq.area with entries := mapSent backToWaiting s.dq.area.entries }
            { v with dq := { v.dq with pending := none } }) := by
        unfold performDqStep; rw [hp, hs]; rfl
      rw [hr]
      refine ⟨?_, rfl⟩
      unfold dqOutcome
      rw [if_pos (by exact hg)]
      exact ⟨rfl, rfl, rfl⟩
    | convert =>
      have hr : performDqStep v = makeRecord [.deferred { s.dq.area with entries := mapSent converted s.dq.area.entries }]
          [] (putDeferred { s.dq.area with entries := mapSent converted s.dq.area.entries }
            { v with dq := { v.dq with pending := none } }) := by
        unfold performDqStep; rw [hp, hs]; rfl
      rw [hr]
      refine ⟨?_, rfl⟩
      unfold dqOutcome
      rw [if_pos (by exact hg)]
      exact ⟨rfl, rfl, rfl⟩
    | remove filed day loss =>
      set u := putDeferred (removeSent s.dq.area e) { v with dq := { v.dq with pending := none } } with hu
      have hr : performDqStep v = makeRecord (.deferred (removeSent s.dq.area e) ::
          (if 0 < filed then fileActor (cardHome e.card) .redemption filed day u else (u, [])).2)
          ((loss.map fun n => Dependent.loss n).toList)
          (if 0 < filed then fileActor (cardHome e.card) .redemption filed day u else (u, [])).1 := by
        unfold performDqStep; rw [hp, hs]; rfl
      rw [hr]
      unfold dqOutcome stepEffect takenFiling
      by_cases h0 : 0 < filed
      · simp only [if_pos h0]
        obtain ⟨c1, c2, c3⟩ := fileActor_congr (s := s) (u := u) rfl rfl (cardHome e.card) .redemption filed day
        have hf := fileActor_only (cardHome e.card) .redemption filed day u
        set f := fileActor (cardHome e.card) .redemption filed day u
        set g := fileActor (cardHome e.card) .redemption filed day s
        have hps : f.1.ps = u.ps := by rw [hf]
        have hdq : f.1.dq = u.dq := by rw [hf]
        have a1 : f.1.ctu = s.ctu := by rw [hf]; rfl
        have a2 : f.1.su = s.su := by rw [hf]; rfl
        have a3 : f.1.lc = s.lc := by rw [hf]; rfl
        have a4 : f.1.choices = s.choices := by rw [hf]; rfl
        have a5 : f.1.pending = s.pending := by rw [hf]; rfl
        have hb : (settleWaiting (settleWaiting (makeRecord (.deferred (removeSent s.dq.area e) :: f.2)
          ((loss.map fun n => Dependent.loss n).toList) f.1))).dq.backoff = s.dq.backoff := by
          show f.1.dq.backoff = _; rw [hdq]; rfl
        refine ⟨?_, hb⟩
        rw [hb, if_pos hg]
        refine ⟨?_, ?_, State.ext c2 a1 a2 rfl a3 rfl c3 a4 a5⟩
        · show f.1.dq = _
          rw [hdq]; rfl
        · unfold oneRecord
          rw [← c1]
          show Ps.mk f.1.ps.store (f.1.ps.queue ++ _) (if f.1.ps.queue.isEmpty then _ else f.1.ps.timer) _ = _
          rw [hps]; rfl
      · simp only [if_neg h0]
        refine ⟨?_, rfl⟩
        rw [if_pos (by exact hg)]
        exact ⟨rfl, rfl, rfl⟩

/-- The same, behind a change of the home's back-off line and of the receiver (R91, R94 to R99). -/
theorem dqDecide_putBackoff (s : State) (e : DeferredEntry) (lc : Lc) (home : Station) (bo : BackoffLine) (step : DqStep)
    (hb : Table.rises s.dq.backoff = true)
    (he : sentEntry s = some e) :
    oneBackoff s (settleWaiting (dqDecide step (putBackoff home bo { s with lc := lc }))) home bo ∧
    dqOutcome s (settleWaiting (dqDecide step (putBackoff home bo { s with lc := lc }))) lc step (stepEffect s e step).1
        (stepEffect s e step).2.1 (stepEffect s e step).2.2 := by
  set u := putBackoff home bo { s with lc := lc } with hu
  obtain ⟨h1, h2⟩ := dqDecide_outcome u e he step
  refine ⟨oneBackoff_of_set hb (by rw [h2]; rfl), ?_⟩
  unfold dqOutcome at h1 ⊢
  have e1 : dqWaits u u.lc (settleWaiting (dqDecide step u)).dq.backoff step =
    dqWaits s lc (settleWaiting (dqDecide step u)).dq.backoff step := rfl
  rw [e1] at h1
  have ea : (stepEffect u e step).1 = (stepEffect s e step).1 := by cases step <;> rfl
  have ed : (stepEffect u e step).2.2 = (stepEffect s e step).2.2 := by cases step <;> rfl
  have ef : (stepEffect u e step).2.1.2 = (stepEffect s e step).2.1.2 ∧
      (stepEffect u e step).2.1.1.tp = (stepEffect s e step).2.1.1.tp ∧
      (stepEffect u e step).2.1.1.tu = (stepEffect s e step).2.1.1.tu := by
    cases step with
    | backToWaiting => exact ⟨rfl, rfl, rfl⟩
    | convert => exact ⟨rfl, rfl, rfl⟩
    | remove f d l =>
      unfold stepEffect takenFiling; simp only
      split_ifs
      · exact fileActor_congr (s := s) (u := u) rfl rfl _ _ _ _
      · exact ⟨rfl, rfl, rfl⟩
  rw [ea, ed, ef.1, ef.2.1, ef.2.2] at h1
  exact h1

end Sys2Proof.Machine
end

