-- ==== Sys2Proof/Laws/Operations.lean ====
section
/-! SUPPORT. What the shared operations on cards, holds, pair lines and marks, the second notice of a local hold, the
comparison of a peer and the failure of the line do, once. -/
namespace Sys2Proof.Machine
open Safety

/-! ### Writes of one entry -/

/-- One card record written: that record alone is changed. -/
theorem oneCard_of_set {s t : State} {k : Nat} {r : CardRecord} (h : Table.rises s.ctu.cards = true)
    (e : t.ctu.cards = Table.set blankCard s.ctu.cards k r) : oneCard s t k r := by
  refine ⟨by unfold cardOf; rw [e]; exact Table.get_set_self _ _ _ _ h, fun x hx => ?_⟩
  unfold cardOf; rw [e]; exact Table.get_set_of_ne _ _ _ _ _ h hx

/-- One live line written: that line alone is changed. -/
theorem oneLine_of_set {s t : State} {st : Station} {l : PairLine} (h : Table.rises s.tu.live = true)
    (e : t.tu.live = Table.set blankLine s.tu.live st.toNat l) : oneLine s t st l := by
  refine ⟨by unfold liveLine; rw [e]; exact Table.get_set_self _ _ _ _ h, fun x hx => ?_⟩
  unfold liveLine; rw [e]
  exact Table.get_set_of_ne _ _ _ _ _ h (fun hn => hx (BitVec.eq_of_toNat_eq hn))

/-- One mark written: that mark alone is changed. -/
theorem markOf_of_set {s t : State} {st : Station} {m : PairMark} (h : Table.rises s.tu.marks = true)
    (e : t.tu.marks = Table.set .none s.tu.marks st.toNat m) : markOf t st = m ∧ ∀ x, x ≠ st → markOf t x = markOf s x := by
  refine ⟨by unfold markOf; rw [e]; exact Table.get_set_self _ _ _ _ h, fun x hx => ?_⟩
  unfold markOf; rw [e]
  exact Table.get_set_of_ne _ _ _ _ _ h (fun hn => hx (BitVec.eq_of_toNat_eq hn))

/-- A live entry freed: it keeps its generation, and one held total falls by the grant (R42). -/
theorem oneHold_of_free {s t : State} (i : Nat) (h : LiveHold) (hr : Table.rises s.ctu.holds = true)
    (hr2 : Table.rises s.ctu.held = true)
    (e1 : t.ctu.holds = Table.set blankHold s.ctu.holds i ⟨(holdAt s i).gen, none⟩)
    (e2 : t.ctu.held = Table.set 0 s.ctu.held h.serial (heldOf s h.serial - h.grant)) :
    oneHold s t i ⟨(holdAt s i).gen, none⟩ h.serial (heldOf s h.serial - h.grant) := by
  refine ⟨?_, fun j hj => ?_, ?_, fun k hk => ?_⟩
  · unfold holdAt; rw [e1]; exact Table.get_set_self _ _ _ _ hr
  · unfold holdAt; rw [e1]; exact Table.get_set_of_ne _ _ _ _ _ hr hj
  · unfold heldOf; rw [e2]; exact Table.get_set_self _ _ _ _ hr2
  · unfold heldOf; rw [e2]; exact Table.get_set_of_ne _ _ _ _ _ hr2 hk

/-! ### The second notice of a local hold (R59) -/

theorem isGrantedOf_any (tag : Tag) (r : PostingRecord) : r.deps.any (isGrantedOf tag) = grantedIn tag r := by
  unfold grantedIn; congr 1; funext d; cases d <;> simp [isGrantedOf, Bool.beq_eq_decide_eq]

/-- A notice attached behind GRANTED goes to the first record that carries it, last. -/
theorem attachAfterGranted_append (tag : Tag) (d : Dependent) (q q' : List PostingRecord) (x : PostingRecord)
    (h1 : ∀ y ∈ q, grantedIn tag y = false) (h2 : grantedIn tag x = true) :
    attachAfterGranted tag d (q ++ x :: q') = q ++ { x with deps := x.deps ++ [d] } :: q' := by
  induction q with
  | nil => simp [attachAfterGranted, isGrantedOf_any, h2]
  | cons y q ih =>
    have := h1 y (by simp)
    simp [attachAfterGranted, isGrantedOf_any, this]
    exact ih (fun z hz => h1 z (by simp [hz]))

/-- The second notice enters at once, or is attached behind GRANTED (R59). -/
theorem secondNotice_cases (h : LiveHold) (n : Notice) (asked : Nat) (s : State) :
    secondNotice h n asked s = if s.ps.queue.any (grantedIn h.tag) = true then
      { s with ps := { s.ps with queue := attachAfterGranted h.tag (.placed n asked) s.ps.queue } } else enterPlaced n s := by
  unfold secondNotice
  have : (s.ps.queue.any fun r => r.deps.any (isGrantedOf h.tag)) = s.ps.queue.any (grantedIn h.tag) := by
    congr 1; funext r; exact isGrantedOf_any _ _
  rw [this]

/-! ### A slot that ends without a step (R84) -/

/-- A slot ended at a cause: NOTIFYING, its terminal notice due, nothing else changed. -/
theorem ended_of_trySlot (s : State) (n : Nat) (sl : Slot) (m : Notice) :
    ended s (settleWaiting (trySlot n (endSlot n sl m s))) n sl m := by
  rw [trySlot_of_none (pendingOf_endSlot _ _ _ _)]
  exact ended_of_endSlot n sl m s

/-! ### Comparison of a peer (R147) -/

/-- The comparison gives the mark of R147 from the figures and the closing line. -/
theorem compareMark_eq (s : State) (p : Station) (b : PairLine) :
    compareMark (markOf s p) b (closingLine s p) = comparedMark s p (some b) := by
  unfold compareMark comparedMark
  simp only
  split_ifs with h1 h2 h3 h3
  · rfl
  · rfl
  · exfalso; apply h3; unfold crosswise agrees at h2; simp at h2 ⊢; tauto
  · exfalso; apply h2; unfold crosswise agrees; simp at h3 ⊢; tauto
  · rfl

/-- A peer compared: its mark alone may change. -/
theorem comparePeer_mark (s : State) (st : Station) (h : Table.rises s.tu.marks = true) :
    markOf (comparePeer st s) st = comparedMark s st (figuresOf s st) ∧
      (∀ x, x ≠ st → markOf (comparePeer st s) x = markOf s x) ∧
      comparePeer st s = { s with tu := { s.tu with marks := (comparePeer st s).tu.marks } } ∧
      Table.rises (comparePeer st s).tu.marks = true := by
  unfold comparePeer
  cases hf : figuresOf s st with
  | none => exact ⟨rfl, fun _ _ => rfl, rfl, h⟩
  | some b =>
    have := markOf_of_set (s := s) (t := putMark st (compareMark (markOf s st) b (closingLine s st)) s) h rfl
    exact ⟨by rw [this.1, compareMark_eq], this.2, rfl, Table.rises_set _ _ _ h⟩

/-! ### The line fails (R69, R105) -/

/-- The line, the receiver, the frame under way and the receive queue are unchanged. -/
def lcSame (s t : State) : Prop :=
  t.lc.line = s.lc.line ∧ t.lc.receiver = s.lc.receiver ∧ t.lc.sending = s.lc.sending ∧ t.lc.rx = s.lc.rx

theorem lcSame_trans {a b c : State} (h : lcSame a b) (h2 : lcSame b c) : lcSame a c :=
  ⟨h2.1.trans h.1, h2.2.1.trans h.2.1, h2.2.2.1.trans h.2.2.1, h2.2.2.2.trans h.2.2.2⟩
/-- The no-answer event of one slot leaves them as they are. -/
theorem lineNoAnswer_lc (s : State) (n : Nat) : lcSame s (lineNoAnswer s n) := by
  unfold lineNoAnswer
  cases hs : slotAt s n with
  | none => exact ⟨rfl, rfl, rfl, rfl⟩
  | some sl =>
    simp only
    split_ifs with hw
    · unfold waitsOnLine at hw
      simp at hw
      obtain ⟨⟨hk, hst⟩, hp⟩ := hw
      have w : lcSame s (withdrawRequest n sl.tag s) := by
        unfold withdrawRequest; split_ifs <;> exact ⟨rfl, rfl, rfl, rfl⟩
      have na : lcSame (withdrawRequest n sl.tag s) (noAnswer n sl (withdrawRequest n sl.tag s)) := by
        unfold noAnswer; rw [hst, hk]; simp only; unfold redeemUnanswered; split_ifs <;> exact ⟨rfl, rfl, rfl, rfl⟩
      refine lcSame_trans w (lcSame_trans na ?_)
      rcases trySlot_cases n (noAnswer n sl (withdrawRequest n sl.tag s)) with ⟨_, h⟩ | ⟨_, h⟩
      · rw [h]; exact ⟨rfl, rfl, rfl, rfl⟩
      · rw [h]
        set v := leaveWaiting (.slot n) (settleWaiting (noAnswer n sl (withdrawRequest n sl.tag s)))
        have : lcSame (noAnswer n sl (withdrawRequest n sl.tag s)) v := ⟨rfl, rfl, rfl, rfl⟩
        refine lcSame_trans this ?_
        have : lcSame v (performSlotStep n v) := by
          unfold performSlotStep
          cases slotAt v n with
          | none => exact ⟨rfl, rfl, rfl, rfl⟩
          | some x =>
            simp only
            cases x.pending with
            | none => exact ⟨rfl, rfl, rfl, rfl⟩
            | some w =>
              cases w with
              | offline => simp only; cases offlineFails v x <;> exact ⟨rfl, rfl, rfl, rfl⟩
              | deferLate => exact ⟨rfl, rfl, rfl, rfl⟩
              | deferRetry => exact ⟨rfl, rfl, rfl, rfl⟩
              | file p a d m =>
                simp only
                have hf := fileActor_only (cardHome x.card) p a (d.getD (liveDay v)) v
                set f := fileActor (cardHome x.card) p a (d.getD (liveDay v)) v
                have : f.1.lc = v.lc := by rw [hf]
                exact ⟨by show f.1.lc.line = _; rw [this], by show f.1.lc.receiver = _; rw [this],
                  by show f.1.lc.sending = _; rw [this], by show f.1.lc.rx = _; rw [this]⟩
        exact this
    · exact ⟨rfl, rfl, rfl, rfl⟩

theorem lineNoAnswers_lc (l : List Nat) (s : State) : lcSame s (l.foldl lineNoAnswer s) := by
  induction l generalizing s with
  | nil => exact ⟨rfl, rfl, rfl, rfl⟩
  | cons n l ih => exact lcSame_trans (lineNoAnswer_lc s n) (ih _)

/-- The line state enters STUCK or SILENT: LINE is set; with no slot in use nothing else changes. -/
theorem lineFails_lc (l : LineState) (s : State) :
    (lineFails l s).lc.line = l ∧ (lineFails l s).lc.receiver = s.lc.receiver ∧
      (lineFails l s).lc.sending = s.lc.sending ∧ (lineFails l s).lc.rx = s.lc.rx ∧
      (s.su.slots = [] → lineFails l s = setEvent .line { s with lc := { s.lc with line := l } }) := by
  have h := lineNoAnswers_lc (s.su.slots.map (·.1)) (setEvent .line { s with lc := { s.lc with line := l } })
  refine ⟨h.1, h.2.1, h.2.2.1, h.2.2.2, fun hs => ?_⟩
  unfold lineFails
  simp only [setEvent_su, hs]
  rfl

end Sys2Proof.Machine
end

