-- ==== Sys2Proof/Laws/Port.lean ====
section
/-! SUPPORT. What the take of a till command does, once: refused by the station state, or worked on (R10, R168, R169). -/
namespace Sys2Proof.Machine
open Safety

/-! ### takeCommand -/

variable (code seq : Byte) (s : State)

@[simp] theorem takeCommand_tp : (takeCommand code seq s).tp = { s.tp with
    intake := .taken, busy := true, hand := none, response := ⟨seq, code, .pending, .none, 0, []⟩ } := rfl
@[simp] theorem takeCommand_ctu : (takeCommand code seq s).ctu = s.ctu := rfl
@[simp] theorem takeCommand_su : (takeCommand code seq s).su = s.su := rfl
@[simp] theorem takeCommand_dq : (takeCommand code seq s).dq = s.dq := rfl
@[simp] theorem takeCommand_lc : (takeCommand code seq s).lc = s.lc := rfl
@[simp] theorem takeCommand_ps : (takeCommand code seq s).ps = s.ps := rfl
@[simp] theorem takeCommand_tu : (takeCommand code seq s).tu = s.tu := rfl
@[simp] theorem takeCommand_choices : (takeCommand code seq s).choices = s.choices := rfl
@[simp] theorem takeCommand_pending : (takeCommand code seq s).pending = s.pending := rfl

/-- A part that is up runs, and no start-up is under way. -/
theorem isUp_iff : isUp s = true ↔ isRunning s = true ∧ s.tp.startup = .none := by simp [isUp]

/-- An idle port takes the command written. -/
theorem intake_of_idle (work : State → State) (h : idlePort s) :
    intake code seq work s = .next (settleWaiting (work (takeCommand code seq s))) := by
  obtain ⟨hu, hb⟩ := h
  obtain ⟨hr, hs⟩ := (isUp_iff s).1 hu
  simp [intake, refusesBusy, hr, hb, hs]

/-- Everything a take can answer: the state as it is while the part does not run, BUSY, or the command's work. -/
theorem intake_cases (work : State → State) {t : State} (h : intake code seq work s = .next t) :
    isRunning s = false ∧ t = s ∨
      isRunning s = true ∧ refusesBusy s = true ∧ t = { s with tp := { s.tp with intake := .busy } } ∨
      isRunning s = true ∧ refusesBusy s = false ∧ t = settleWaiting (work (takeCommand code seq s)) := by
  unfold intake at h
  split_ifs at h with h1 h2
  · cases h; exact .inl ⟨h1, rfl⟩
  · cases h; exact .inr (.inl ⟨by simpa using h1, h2, rfl⟩)
  · cases h; exact .inr (.inr ⟨by simpa using h1, by simpa using h2, rfl⟩)

/-- A command its station state admits is worked on. -/
theorem tested_of_none (test : State → Option Reason) (work : State → State) (h : test s = none) :
    tested test work s = work s := by simp [tested, h]

/-- A command its station state does not admit is refused. -/
theorem tested_of_some (test : State → Option Reason) (work : State → State) (r : Reason) (h : test s = some r) :
    tested test work s = refuse r s := by simp [tested, h]

/-- In JOINED the card and settlement commands pass the station-state test (R169). -/
theorem tradeTest_of_joined (h : s.tp.station = .joined) : tradeTest (takeCommand code seq s) = none := by
  simp [tradeTest, h]

/-- A command answered at its take leaves every block but the Till Port as it was. -/
theorem onlyPort_of_blocks {s t : State} (ctu : t.ctu = s.ctu) (su : t.su = s.su) (dq : t.dq = s.dq) (lc : t.lc = s.lc)
    (store : t.ps.store = s.ps.store) (queue : t.ps.queue = s.ps.queue) (timer : t.ps.timer = s.ps.timer)
    (tu : t.tu = s.tu) (choices : t.choices = s.choices) (pending : t.pending = s.pending) : onlyPort s t := by
  refine State.ext rfl ctu su dq lc ?_ tu choices pending
  show t.ps = ⟨s.ps.store, s.ps.queue, s.ps.timer, t.ps.waiting⟩
  rw [← store, ← queue, ← timer]

end Sys2Proof.Machine
end

