-- ==== Sys2Proof/Laws/Tags.lean ====
section
/-! SUPPORT. The next tag of the tag sequence is a new one (R65). -/
namespace Sys2Proof.Machine
open Safety

/-- The advance of R65 stops at the first of its n additions that is not 0 and not in use, if there is one. -/
theorem advance_fresh (used : Tag → Bool) : ∀ (n : Nat) (t : Tag),
    (∃ k : Nat, 1 ≤ k ∧ k ≤ n ∧ t + BitVec.ofNat 16 k ≠ 0 ∧ used (t + BitVec.ofNat 16 k) = false) →
    advance used n t ≠ 0 ∧ used (advance used n t) = false
  | 0, _, ⟨_, h1, h2, _⟩ => by omega
  | n + 1, t, ⟨k, h1, h2, h3, h4⟩ => by
    unfold advance
    split_ifs with h
    · refine advance_fresh used n (t + 1) ⟨k - 1, ?_, by omega, ?_⟩
      · by_contra hk
        have : k = 1 := by omega
        subst this
        simp only [Bool.or_eq_true, decide_eq_true_eq] at h
        rcases h with h | h
        · exact h3 h
        · have h5 : used (t + 1) = false := h4
          rw [h] at h5; cases h5
      · have e : t + 1 + BitVec.ofNat 16 (k - 1) = t + BitVec.ofNat 16 k := by
          obtain ⟨j, rfl⟩ : ∃ j, k = j + 1 := ⟨k - 1, by omega⟩
          rw [BitVec.add_assoc]; congr 1
          rw [Nat.add_sub_cancel]
          apply BitVec.eq_of_toNat_eq; simp [BitVec.toNat_add, Nat.add_comm]
        rw [e]; exact ⟨h3, h4⟩
    · simp only [Bool.or_eq_true, decide_eq_true_eq, not_or] at h
      exact ⟨h.1, by simpa using h.2⟩

/-- Some of the additions avoids every tag of a list shorter than their number. -/
theorem exists_unlisted (l : List Tag) (n : Nat) (t : Tag) (hn : l.length < n) (hb : n < 2 ^ 16) :
    ∃ k : Nat, 1 ≤ k ∧ k ≤ n ∧ t + BitVec.ofNat 16 k ∉ l := by
  by_contra hc
  push Not at hc
  have hsub : ((List.range n).map fun i => t + BitVec.ofNat 16 (i + 1)) ⊆ l := by
    intro x hx
    obtain ⟨i, hi, rfl⟩ := List.mem_map.1 hx
    exact hc (i + 1) (by omega) (by have := List.mem_range.1 hi; omega)
  have hnd : ((List.range n).map fun i => t + BitVec.ofNat 16 (i + 1)).Nodup := by
    refine List.Nodup.map_on (fun i hi j hj h => ?_) List.nodup_range
    have h1 := List.mem_range.1 hi
    have h2 := List.mem_range.1 hj
    have h3 : BitVec.ofNat 16 (i + 1) = BitVec.ofNat 16 (j + 1) := by simpa using h
    have := congrArg BitVec.toNat h3
    simp only [BitVec.toNat_ofNat] at this
    rw [Nat.mod_eq_of_lt (by omega), Nat.mod_eq_of_lt (by omega)] at this
    omega
  have := (List.subperm_of_subset hnd hsub).length_le
  simp at this
  omega

/-- The next tag is not 0 and no tag in use, while the slots, the hold table and the queue keep their sizes (R65). -/
theorem nextTag_fresh (s : State) (hs : slotLaw s) (he : entryLaw s) : nextTag s ≠ 0 ∧ tagInUse s (nextTag s) = false := by
  obtain ⟨hs1, hs2⟩ := hs
  obtain ⟨-, hr, hb, ha, -⟩ := he
  set l : List Tag := 0 :: (s.su.slots.map (·.2.tag) ++ (localHolds s).map (·.2.tag) ++ s.dq.area.entries.map (·.tag)) with hl
  have h1 : s.su.slots.length ≤ 32 := by simpa using Table.length_le s.su.slots 0 32 hs1 (fun e he => (hs2 e he).1)
  have h2 : (localHolds s).length ≤ 256 := by
    have h3 : s.ctu.holds.length ≤ 256 := by simpa using Table.length_le s.ctu.holds 0 256 hr hb
    have h4 : (localHolds s).length ≤ (liveHolds s).length := List.length_filter_le _ _
    have h5 : (liveHolds s).length ≤ s.ctu.holds.length := List.length_filterMap_le _ _
    omega
  have h3 : s.dq.area.entries.length ≤ 64 := ha.1
  obtain ⟨k, k1, k2, k3⟩ := exists_unlisted l 354 s.su.tagSeq (by simp [hl]; omega) (by norm_num)
  refine advance_fresh (tagInUse s) 354 s.su.tagSeq ⟨k, k1, k2, fun h => k3 (by rw [h, hl]; simp), ?_⟩
  by_contra hu
  apply k3
  simp only [Bool.not_eq_false, tagInUse, Bool.or_eq_true, List.any_eq_true, beq_iff_eq] at hu
  rw [hl]
  simp only [List.mem_cons, List.mem_append, List.mem_map]
  right
  rcases hu with (⟨e, he, h⟩ | hu) | ⟨e, he, h⟩
  · exact .inl (.inl ⟨e, he, h⟩)
  · obtain ⟨e, he⟩ := Option.isSome_iff_exists.1 hu
    exact .inl (.inr ⟨e, List.mem_of_find?_eq_some he, by have := List.find?_some he; simpa using this⟩)
  · exact .inr ⟨e, he, h⟩
end Sys2Proof.Machine
end

