-- ==== Sys2Proof/Tests/Slice0.lean ====
section
/-! SUPPORT. Tests: ill-formed terms refused, worked examples of the spec, one step per command, and a state and operands that
meet the hypotheses of each statement. -/
namespace Sys2Proof.Tests
open Machine Safety

/- One test at a time: many at once, each a thread of its own, run out of room. -/
set_option Elab.async false

/-! ### Ill-formed terms (spec 01) -/

/-- STATUS has no parameters, so its own code and length are no malformed write (R10, R11). -/
theorem test_malformed_refused : (Instr.malformed 0x04 1 []).wellFormed = false := by decide

/-- An unknown code is a malformed write (R10). -/
theorem test_malformed_allowed : (Instr.malformed 0x05 1 []).wellFormed = true := by decide

/-- A frame whose body does not match its length field is refused (R4). -/
theorem test_raw_length_refused :
    (Instr.receiveQueueEntry ⟨2, true, 7, 12, 8, 3, [0, 1], 0⟩).wellFormed = false := by decide

/-- A frame whose length field exceeds 56 is refused (R4, R5). -/
theorem test_raw_long_refused :
    (Instr.receiveQueueEntry ⟨2, true, 7, 12, 8, 57, List.replicate 57 0, 0⟩).wellFormed = false := by decide

/-- Station 0 sends no frame (R9). -/
theorem test_source_zero_refused : (Instr.stall 0 12 5).wellFormed = false := by decide

/-- Destination 63 is for TALLY-OPEN alone (R9). -/
theorem test_broadcast_refused : (Instr.claimOk 7 63 5 100 212 false).wellFormed = false := by decide

/-- A TALLY-OPEN is addressed to 63 (R9). -/
theorem test_tally_open_refused : (Instr.tallyOpen 7 12 212).wellFormed = false := by decide

/-- The reason HELD is not carried on the line (R14). -/
theorem test_reason_refused : (Instr.holdNo 7 12 5 .held 0).wellFormed = false := by decide

/-- The reason AMOUNT, code 15, is carried on the line (R14). -/
theorem test_reason_allowed : (Instr.claimNo 7 12 5 .amount).wellFormed = true := by decide

/-- Back-off is kept for stations 1 to 62 (R91). -/
theorem test_backoff_refused : (Instr.backoffExpiry 63).wellFormed = false := by decide

/-! ### Formats (spec 01) -/

/-- R3's worked value: the bytes 0x31 to 0x39 give 0x29B1. -/
theorem test_register : crcOf (bitsOfBytes [0x31, 0x32, 0x33, 0x34, 0x35, 0x36, 0x37, 0x38, 0x39]) = 0x29B1 := by
  decide +kernel

/-- R2's worked card: mall 0x4A21, station 7, serial 300, generation 2. -/
theorem test_card_number : makeCard 0x4A21 7 300 2 = 0x4A211C2582 := by decide

/-- R2's worked card read back. -/
theorem test_card_fields : cardMall 0x4A211C2582 = 0x4A21 ∧ cardHome 0x4A211C2582 = 7 ∧ cardSerial 0x4A211C2582 = 300 ∧
    cardGen 0x4A211C2582 = 2 := by decide

/-- The 13 bytes of a HOLD written out by R6: tag, card number, check code, amount, flag. -/
theorem test_hold_body : decodeBody 1 [0x12, 0x34, 0x4A, 0x21, 0x1C, 0x25, 0x82, 0xAB, 0xCD, 0x00, 0x01, 0xF4, 0x01] =
    some (.hold 0x1234 0x4A211C2582 0xABCD 500 true) := by decide

/-- The 12 bytes of a POST-OK written out by R6. -/
theorem test_post_ok_body : decodeBody 13 [0x00, 0x05, 0, 0, 100, 0, 0, 20, 6, 0, 212, 0] =
    some (.postOk 5 100 20 .funds 212 false) := by decide

/-- A POST of origin 3 is not taken (R7, R9). -/
theorem test_post_origin : decodeBody 4 [0, 5, 0, 0, 0, 0, 0, 0, 0, 0, 0, 1, 0, 9, 3] = none := by decide

/-- The header of R4's example: HOLD from station 3 to home 12, class 2, ordinary, 13 body bytes. -/
theorem test_header : headerBits ⟨2, true, 3, 12, 1, 13, [], 0⟩ =
    [true, false, true, false, false, false, false, true, true, false, false, true, true, false, false,
     false, false, false, false, true, false, false, true, true, false, true] := by decide

/-- A REDEEM record written out by R11: code 0x21, 11 parameters, both flags. -/
theorem test_redeem_record :
    writtenCommand [0x01, 0x21, 0x09, 11, 0x4A, 0x21, 0x1C, 0x25, 0x82, 0xAB, 0xCD, 0, 1, 0xF4, 3] =
      some (.redeem 9 0x4A211C2582 0xABCD 500 true true) := by decide

/-- A transfer that ends before the last parameter byte writes no command (R10). -/
theorem test_short_transfer : writtenCommand [0x01, 0x30, 0x09, 2, 0] = none := by decide

/-- A record of the wrong length is MALFORMED (R10). -/
theorem test_wrong_length : writtenCommand [0x01, 0x30, 0x09, 1, 0] = some (.malformed 0x30 9 [0]) := by decide

/-- The trailing byte of a command write is its intake result: BUSY here; another transfer shifts out 0x00 (R10). -/
theorem test_intake_byte :
    let s := { State.reset with tp := { resetTp with busy := true, intake := .busy } }
    (shiftedOut s s 0x01 [0x04, 0x09, 0, 0])[4]? = some 0x01 ∧ shiftedOut s s 0x07 [0, 0] = [0x01, 0, 0] := by decide +kernel

/-- The port status byte: ATTENTION needs the mask and the flag (R10, R183). -/
theorem test_port_status : portStatus { State.reset with tp := { resetTp with
    busy := true, events := 0x04, mask := 0x04, allMask := true } } = 0x03 := by decide

/-! ### The fee table of R159 -/

theorem test_fees : [feeOn 100 50, feeOn (-100) 50, feeOn 99 50, feeOn 300 50, feeOn 299 50, feeOn (-300) 50, feeOn 33 150,
    feeOn 34 150, feeOn 12345 0, feeOn 1 1000, feeOn 5 1000, feeOn 66 150] = [1, -1, 0, 2, 1, -2, 0, 1, 0, 0, 1, 1] := by
  decide

/-- Expiry day 3 at the live days 65,530, 3 and 4 of R18's example. -/
theorem test_earlier : earlier 3 65530 = false ∧ earlier 3 3 = false ∧ earlier 3 4 = true := by decide

/-! ### States -/

/-- A configuration of station 7 with members 7, 9 and 12 (R172's defaults elsewhere). -/
def config : ConfigRecord := { defaultConfig with station := 7, mall := 0x4A21, members := 0x1280, startDay := 211 }

/-- Station 7 in CONFIGURED. -/
def configured : State := { State.reset with tp := { resetTp with station := .configured, config := config } }

/-- Station 7 in JOINED on an idle line, live day 212. -/
def base : State := { State.reset with
  tp := { resetTp with station := .joined, config := config }
  lc := { blankLc with line := .active, receiver := .idle, stuck := 500 }
  tu := { blankTu with liveDay := some 212 } }

/-- Station 7 following a frame of another station. -/
def following : State := { base with lc := { base.lc with receiver := .following } }

/-- R2's card of station 7, and a card of station 12. -/
def ownCard : CardNo := makeCard 0x4A21 7 300 2
def farCard : CardNo := makeCard 0x4A21 12 5 1

/-- The record of R2's card: ACTIVE, balance 1,000. -/
def ownRecord : CardRecord := ⟨.active, 2, 1000, 200, none, 200, []⟩

/-- Station 7 with that card. -/
def withCard : State := { base with ctu := { blankCtu with cards := [(300, ownRecord)], liability := 1000 } }

/-- Its check code. -/
def ownCheck : Check := checkCode ownCard 0

/-- A live hold of station 9 with this grant. -/
def liveHold (grant : Nat) : LiveHold := ⟨300, 9, 77, grant, 60000, 0⟩

/-- Station 7 with that card, and a hold of station 9 on it. -/
def withHold : State := { withCard with ctu := { withCard.ctu with
  held := [(300, 400)], holds := [(0, ⟨1, some (liveHold 400)⟩)] } }

/-- A local hold of 400 under tag 33 with this many places; station 7 with it, on R2's card. -/
def ownHold (places : Nat) : LiveHold := ⟨300, 7, 33, 400, 60000, places⟩
def localState : State := { withCard with
  tp := { withCard.tp with taken := 2 }
  ctu := { withCard.ctu with held := [(300, 400)], holds := [(0, ⟨1, some (ownHold 2)⟩)] } }

/-- A record with the GRANTED of that hold attached, and one without. -/
def grantedRecord : PostingRecord := ⟨[.tagSeq 33], [.placed { plainNotice 33 ownCard .granted with amountA := 400 } 400]⟩
def plainRecord : PostingRecord := ⟨[.tagSeq 32], []⟩

/-- The state with this request waiting at the CTU. -/
def asked (s : State) (src : Station) (b : Body) : State :=
  settleWaiting { s with lc := { s.lc with rx := [⟨src, b⟩] } }

/-- The state with this command in hand. -/
def inHand (s : State) (h : Hand) : State := settleWaiting { s with tp := { s.tp with busy := true, hand := some h } }

/-- A slot on the card of station 12. -/
def slot (k : SlotKind) (st : SlotState) : Slot :=
  { newSlot 33 ⟨k, farCard, 0, 500, false, false, 20, none⟩ with state := st }

/-- The state with this slot in use. -/
def withSlot (s : State) (sl : Slot) : State := settleWaiting { s with su := { s.su with slots := [(0, sl)] } }

/-- A deferred POST on the card of station 12. -/
def entry (sent : Bool) : DeferredEntry := ⟨.post, .offline, farCard, 0, 500, 44, none, 212, sent, 0⟩

/-- The state with this deferred entry. -/
def withEntry (s : State) (e : DeferredEntry) : State :=
  settleWaiting { s with dq := { s.dq with area := ⟨[e], if e.origin = .offline then e.amount else 0⟩ } }

/-! ### States that meet the statements' hypotheses -/

theorem cardLaw_withHold : cardLaw withHold := by
  refine ⟨⟨by decide, by decide, fun k => ?_⟩, by decide, by decide, fun k => ?_⟩ <;> by_cases h : k = 300
  · subst h; decide
  · have h2 : ((300 : Nat) == k) = false := by simpa using Ne.symm h
    simp [heldOf, grantsOn, withHold, withCard, base, liveHolds, Table.get, Table.find, liveHold, Ne.symm h, h2,
      blankCtu]
  · subst h; decide
  · simp [heldOf, cardOf, withHold, withCard, Table.get, Table.find, Ne.symm h, blankCard]

/-- O1: a station that runs with nothing due. -/
theorem witness_StepRunsFrontCommand : isRunning State.reset = true ∧ due { State.reset with pending := [] } = [] := by
  decide +kernel

/-- The laws hold of states with a command waiting, and the step goes on. -/
theorem witness_StepKeepsTables : tablesCanonical { withHold with pending := [.status 1] } ∧
    ∃ t, step { withHold with pending := [.status 1] } = .next t := ⟨by unfold tablesCanonical; decide +kernel, _, rfl⟩
theorem witness_StepKeepsLiability : liabilityLaw { withHold with pending := [.status 1] } ∧
    ∃ t, step { withHold with pending := [.status 1] } = .next t := ⟨by unfold liabilityLaw; decide +kernel, _, rfl⟩
theorem witness_StepKeepsHeldTotals : heldLaw withHold ∧ ∃ t, step withHold = .next t :=
  ⟨cardLaw_withHold.1, ⟨_, rfl⟩⟩
theorem witness_StepKeepsCards : cardLaw withHold ∧ withHold.tp.startup ≠ .reloading ∧ ∃ t, step withHold = .next t :=
  ⟨cardLaw_withHold, by decide, ⟨_, rfl⟩⟩
theorem witness_StepKeepsWriteQueue :
    let s := { base with
      ps := { base.ps with queue := [⟨[.tagSeq 5], []⟩], waiting := [⟨.payout, true⟩] }, pending := [.writeCompletion] }
    writeQueueLaw s ∧ heldPlaces s.ps.waiting = 1 ∧ ∃ t, step s = .next t :=
  ⟨by unfold writeQueueLaw; decide, by decide, _, rfl⟩
theorem witness_StepKeepsNoticePending :
    let s := { localState with
      tp := { localState.tp with notices := [emptyNotice], taken := 2, events := 1 }, pending := [.takeNotice 1] }
    noticeLaw s ∧ placeLaw s ∧ keptPlaces s = 1 ∧ ∃ t, step s = .next t :=
  ⟨.inr (by decide), by unfold placeLaw; decide, by decide, _, rfl⟩
theorem witness_StepKeepsCommandState : commandLaw { base with pending := [.sell 1 5 none] } ∧
    ∃ t, step { base with pending := [.sell 1 5 none] } = .next t := ⟨by unfold commandLaw; decide, _, rfl⟩
theorem witness_StepKeepsSlots : slotLaw { withSlot base (slot .redeem .asking) with pending := [.status 1] } ∧
    ∃ t, step { withSlot base (slot .redeem .asking) with pending := [.status 1] } = .next t :=
  ⟨by unfold slotLaw; decide +kernel, _, rfl⟩
theorem witness_StepKeepsSlots_entries :
    let s := withEntry (withSlot base (slot .redeem .asking)) (entry true)
    slotLaw s ∧ entryLaw s ∧ ∃ t, step s = .next t := by
  refine ⟨by unfold slotLaw; decide +kernel, ⟨by decide +kernel, by decide, by decide, by unfold areaLaw; decide +kernel,
    by unfold areaLaw; decide +kernel, by simp [withEntry, withSlot, settleWaiting, base, State.reset], fun x hx => ?_,
    by decide, by decide⟩, _, rfl⟩
  simp only [withEntry, withSlot, settleWaiting, List.mem_singleton] at hx
  subst hx
  rintro ⟨e, he, ht⟩
  simp only [withEntry, withSlot, settleWaiting, List.mem_singleton] at he
  subst he
  exact absurd ht (by decide)

/-- Commands that go on without a write's completion. -/
theorem witness_StoreChangesAtCompletion : ∃ t, exec (.status 1) base = .next t := ⟨_, rfl⟩
theorem witness_HaltedKeepsAccounts :
    let s := { base with tp := { base.tp with station := .halted } }
    isUp s = true ∧ isHalted s = true ∧ restarts .hold = false ∧ ∃ t, exec .hold s = .next t :=
  ⟨by decide, by decide, by decide, _, rfl⟩
theorem witness_DisputedStays :
    let s := { base with tu := { base.tu with marks := [(9, .disputed)] } }
    isUp s = true ∧ Table.rises s.tu.marks = true ∧ restarts .tallyStep = false ∧ markOf s 9 = .disputed ∧
      ∃ t, exec .tallyStep s = .next t := ⟨by decide, by decide, by decide, by decide, _, rfl⟩
theorem witness_ClosingLineFixed :
    let s := { base with tu := { base.tu with round := ⟨some 211, 0x200, false⟩ } }
    isUp s = true ∧ Table.rises s.tu.closing = true ∧ restarts .tallyStep = false ∧ inSet s.tu.round.sent 9 = true ∧
      ∃ t, exec .tallyStep s = .next t := ⟨by decide, by decide, by decide, by decide, _, rfl⟩

/-- Formats. -/
theorem witness_BodyRoundTrip : codedFieldsOk (.postOk 5 100 20 .funds 212 false) = true := by decide
theorem witness_FrameRoundTrip : addressOk 3 12 (.hold 5 farCard 0 500 false) = true ∧ addressOk 3 63 (.tallyOpen 212) = true := by
  decide
theorem witness_CommandRoundTrip : (Instr.settle 1 212).wellFormed = true ∧
    encodeCommand (.settle 1 212) = some (0x30, 1, [0, 212]) ∧ (Instr.malformed 0x05 1 []).wellFormed = true := by decide
theorem witness_CardAreaRoundTrip :
    let r : CardRecord := { ownRecord with tags := [⟨9, 77, .capture⟩] }
    tagsOk r.tags = true ∧ (∀ e ∈ r.tags, isStation e.station = true) ∧ r.balance ≤ 500000 ∧
      (isIssued r = false → r.balance = 0) := by decide
theorem witness_RecordFormats : (cardOf withHold 300).tags.length ≤ 4 ∧ (cardOf withHold 300).balance < 2 ^ 24 ∧
    heldOf withHold 300 < 2 ^ 24 := by decide

/-- A pair line with these two sums on the acting side and on the home side. -/
def line (act home : Sum48) : PairLine := ⟨⟨1, home⟩, ⟨0, 0⟩, ⟨0, 0⟩, ⟨1, act⟩, ⟨0, 0⟩, ⟨0, 0⟩⟩

/-- R167's lines of station 7 for peers 3 and 12. -/
def line3 : PairLine := ⟨⟨2, 5000⟩, ⟨0, 0⟩, ⟨1, 2500⟩, ⟨4, 12345⟩, ⟨1, 2000⟩, ⟨0, 0⟩⟩
def line12 : PairLine := ⟨⟨0, 0⟩, ⟨0, 0⟩, ⟨0, 0⟩, ⟨1, 800⟩, ⟨1, 1300⟩, ⟨0, 0⟩⟩

theorem witness_PeerFigures : ∀ act ∈ [(100 : Sum48), -100, 0], ∀ x ∈ [act.toInt, 0, 40, 0, 0, 0],
    -(2 ^ 43) ≤ x ∧ x ≤ (2 ^ 43 : Int) := by simp
theorem witness_MirrorLines : crosswise (line 40 100) (line 100 40) = true ∧
    (∀ f ∈ [(line 100 40).homeRed, (line 100 40).homeRet, (line 100 40).homeLoad, (line 100 40).actRed,
      (line 100 40).actRet, (line 100 40).actLoad], -(2 ^ 43) ≤ f.sum.toInt ∧ f.sum.toInt ≤ 2 ^ 43) := by
  refine ⟨by decide, ?_⟩
  simp [line]
theorem witness_PayoutTotals :
    let day : ComputeInputs := ⟨212, [⟨3, .matched, line3⟩, ⟨12, .matched, line12⟩], line 0 0, 150⟩
    let i : ComputeInputs := ⟨211, [⟨9, .matched, line 100 40⟩], line 0 0, 150⟩
    day.peers.length ≤ 61 ∧ (computePayout day false).entries.all (fun e => decide (-(2 ^ 41) ≤ e.line.toInt ∧
      e.line.toInt < 2 ^ 41 ∧ -(2 ^ 41) ≤ e.feeIn.toInt ∧ e.feeIn.toInt < 2 ^ 41)) = true ∧
      i.peers = [⟨9, .matched, line 100 40⟩] ∧ (∀ x ∈ ({ i with peers := [] } : ComputeInputs).peers, x.state ≠ .matched) := by
  decide +kernel

/-- R167's worked day 212: the lines 7,690 and -492, the fees 155 and -8, the payout 7,198 and the fee withheld 147. -/
theorem test_worked_day :
    let p := computePayout ⟨212, [⟨3, .matched, line3⟩, ⟨12, .matched, line12⟩], line 0 0, 150⟩ false
    p.entries.map (fun e => (e.line.toInt, e.feeIn.toInt)) = [(7690, 155), (-492, -8)] ∧ p.payout.toInt = 7198 ∧
      p.fee.toInt = 147 := by decide +kernel

/-- The till port. -/
theorem idle_base : idlePort base := ⟨by decide, by decide⟩
theorem idle_configured : idlePort configured := ⟨by decide, by decide⟩
theorem idle_reset : idlePort State.reset := ⟨by decide, by decide⟩
theorem witness_IntakeRefusals :
    let s := { base with tp := { base.tp with busy := true } }
    isRunning s = true ∧ encodeCommand (.status 1) = some (0x04, 1, []) ∧ (∀ q, Instr.status 1 ≠ .reset q) ∧
      (∀ a b l, Instr.status 1 ≠ .malformed a b l) ∧ (s.tp.busy = true ∨ s.tp.startup ≠ .none) :=
  ⟨by decide, by decide, by simp, by simp, .inl rfl⟩
theorem witness_StationStateRefusals :
    (encodeCommand (.sell 1 5 none) = some (0x10, 1, [0, 0, 5, 0, 0, 0]) ∧ idlePort configured ∧
      tradeCommand (.sell 1 5 none) = true ∧ configured.tp.station = .configured) ∧
    (encodeCommand (.join 1) = some (0x02, 1, []) ∧ idlePort base ∧ base.tp.station = .joined) :=
  ⟨⟨by decide, idle_configured, by decide, by decide⟩, ⟨by decide, idle_base, by decide⟩⟩
theorem witness_StationStateRefusals_halted :
    let s := { base with tp := { base.tp with station := .halted } }
    encodeCommand (.join 1) = some (0x02, 1, []) ∧ idlePort s ∧ (∀ a b l, Instr.join 1 ≠ .malformed a b l) ∧
      s.tp.station = .halted := ⟨by decide, ⟨by decide, by decide⟩, by simp, by decide⟩

/-- A CONFIGURE for station 7 with every field present. -/
def params : ConfigParams := ⟨0x1FFF, 7, 0x4A21, 0, 0x1280, 1, 150, 120, 400, 1, 5000, 50000, 500000, 3, 30, 8000, 211⟩

theorem witness_ConfigClamping : tablesCanonical State.reset ∧ tablesCanonical withHold ∧
    1 ≤ params.station.toNat ∧ params.station.toNat ≤ 62 ∧
    params.present.getLsbD 3 = true ∧ 30 ≤ params.holdLife.toNat ∧ params.holdLife.toNat ≤ 600 :=
  ⟨by unfold tablesCanonical; decide +kernel, by unfold tablesCanonical; decide +kernel, by decide⟩
theorem witness_ConfigClamping_edges :
    let p := { params with holdLife := 29, ceiling := 2000001, divisor := 0 }
    p.present.getLsbD 3 = true ∧ p.holdLife.toNat < 30 ∧ p.present.getLsbD 8 = true ∧ 2000000 < p.ceiling.toNat ∧
      p.present.getLsbD 11 = true ∧ p.divisor = 0 ∧ ({ p with present := 0 } : ConfigParams).present.getLsbD 3 = false ∧
      600 < ({ p with holdLife := 601 } : ConfigParams).holdLife.toNat := by decide
theorem witness_ConfigureTaken : idlePort State.reset ∧ State.reset.tp.station = .unconfigured ∧
    configureTests State.reset params = none ∧ State.reset.ps.queue = [] ∧
    joiningMembers State.reset (settleConfig State.reset params) = 0 := ⟨idle_reset, by decide +kernel⟩
theorem witness_ConfigureTaken_joining :
    let s := { configured with tu := { configured.tu with round := ⟨some 211, 0x200, false⟩ }
                               ps := { configured.ps with store := { blankStore with liveDay := some 212 } } }
    let p := { params with members := 0x3280 }
    idlePort s ∧ configureTests s p = none ∧ s.ps.queue = [] ∧ joiningMembers s (settleConfig s p) = 0x2000 :=
  ⟨⟨by decide, by decide⟩, by decide +kernel⟩
theorem witness_JoinTaken : idlePort configured ∧ configured.tp.station = .configured ∧
    ({ configured with tu := { configured.tu with state := .tallying } } : State).tu.state = .tallying ∧
    memberPeers configured ≠ [] := ⟨idle_configured, by decide +kernel⟩
theorem witness_ResetTaken : isRunning base = true ∧ base.ps.queue = [] ∧
    ({ base with ps := { base.ps with queue := [plainRecord] } } : State).ps.queue = [plainRecord] := by decide
theorem witness_PowerAndResetPin : base.tp.powered = true ∧ base.tp.rstHeld = false ∧
    ({ base with tp := { base.tp with powered := false } } : State).tp.powered = false := by decide
theorem witness_ReloadRestores :
    let s := { base with tp := { base.tp with startup := .reloading }, ps := { base.ps with store :=
      { blankStore with config := some config, liveDay := some 211 } } }
    isRunning s = true ∧ s.tp.startup = .reloading ∧ reloadSucceeds s.ps.store = true ∧
      Table.rises s.ps.store.cards = true ∧ s.ps.store.config = some config ∧ reloadSucceeds { s.ps.store with liveDay := none } = false := by decide +kernel
theorem witness_TakeNoticeTaken :
    let s := { base with tp := { base.tp with notices := [emptyNotice], events := 1 } }
    idlePort s ∧ noticeLaw s ∧ s.tp.notices = [emptyNotice] :=
  ⟨⟨by decide, by decide⟩, .inr (by decide), rfl⟩
theorem witness_TakeNoticeTaken_due :
    let d : DueNotice := ⟨plainNotice 33 farCard .noAnswer, some 0, true⟩
    let s := { withSlot base (slot .redeem .notifying) with
      tp := { base.tp with notices := List.replicate 16 emptyNotice, events := 1 }
      su := { (withSlot base (slot .redeem .notifying)).su with due := [d] } }
    idlePort s ∧ s.tp.notices = emptyNotice :: List.replicate 15 emptyNotice ∧ s.su.due = [d] ∧
      s.tp.notices.length + s.tp.taken ≤ 16 ∧ Table.rises s.su.slots = true :=
  ⟨⟨by decide, by decide⟩, by decide +kernel⟩
theorem witness_ClearEventsTaken :
    let s := { base with tp := { base.tp with notices := [emptyNotice], events := 0x2D } }
    idlePort s ∧ noticeLaw s := ⟨⟨by decide, by decide⟩, .inr (by decide)⟩
theorem witness_SetMaskAndReadEvents : idlePort base ∧ noticeLaw base := ⟨idle_base, .inl rfl⟩
theorem witness_StatusTaken : idlePort base ∧ idlePort State.reset := ⟨idle_base, idle_reset⟩
theorem witness_ReadsTaken : idlePort base ∧ ([0x21, 0x09] : List Byte).length = (2 : Byte).toNat ∧
    (0x07 : Byte) ≠ 0x01 ∧ (0x07 : Byte) ≠ 0x02 := ⟨idle_base, by decide⟩

/-! ### Witnesses of the takes, slots, queue, line and round -/

theorem witness_HomeCommandsHanded : idlePort base ∧ base.tp.station = .joined := ⟨idle_base, rfl⟩
theorem witness_CardCommandsRouted :
    let s := { base with dq := { base.dq with area := ⟨[entry false], 500⟩ } }
    idlePort s ∧ s.tp.station = .joined ∧ cardHome ownCard = ownStation s ∧ isMember s (cardHome farCard) = true ∧
      cardHome farCard ≠ ownStation s ∧ isMember s (cardHome (makeCard 0x4A21 13 5 1)) = false ∧
      (s.dq.area.entries.any fun e => e.tag == 44) = true := ⟨⟨by decide, by decide⟩, by decide⟩
theorem witness_SettleAndRecount :
    let s := { base with tu := { base.tu with state := .settled } }
    idlePort s ∧ s.tp.station = .joined ∧ s.tu.liveDay = some 212 ∧ s.tu.opening = none ∧ memberPeers s ≠ [] :=
  ⟨⟨by decide, by decide⟩, by decide⟩
theorem witness_SlotConfirmAndCancel :
    let sl := { slot .redeem .held with hold := some (0x0102, 400), holdTimer := some 5 }
    let s := withSlot base sl
    idlePort s ∧ s.tp.station = .joined ∧ localHold s 33 = none ∧ heldSlot s 33 = some (0, sl) ∧ 1 ≤ txFree s .c2 ∧
      heldSlot s 34 = none := ⟨⟨by decide, by decide⟩, by decide +kernel⟩
theorem witness_SlotConfirmAndCancel_busy :
    let sl := { slot .redeem .held with hold := some (0x0102, 400), holdTimer := some 5 }
    let s := withSlot { base with lc := { base.lc with tx2 := ⟨[], 8⟩ } } sl
    idlePort s ∧ s.tp.station = .joined ∧ localHold s 33 = none ∧ heldSlot s 33 = some (0, sl) ∧ txFree s .c2 = 0 :=
  ⟨⟨by decide, by decide⟩, by decide +kernel⟩
theorem witness_SlotConfirmAndCancel_local : idlePort localState ∧ localState.tp.station = .joined ∧
    localHold localState 33 = some (0, ownHold 2) := ⟨⟨by decide, by decide⟩, by decide +kernel⟩

theorem witness_HomeOperationTaken_sell :
    let s := inHand base (.homeOp (.sell 500 (some 212)))
    takesLocal s = true ∧ Table.rises s.ctu.cards = true ∧ 1 ≤ sparePlaces s ∧ sellable s = some 0 ∧
      500 ≤ s.tp.config.ceiling ∧ earlier 212 (liveDay s) = false := by decide +kernel
theorem witness_HomeOperationTaken_close :
    let s := inHand withCard (.homeOp (.close ownCard))
    takesLocal s = true ∧ 1 ≤ sparePlaces s ∧ homeCardTests s ownCard = none ∧ heldOf s (cardSerial ownCard) = 0 := by
  decide +kernel
theorem witness_HomeOperationTaken_freeze :
    let s := inHand withCard (.homeOp (.freeze ownCard))
    takesLocal s = true ∧ homeCardTests s ownCard = none ∧ reported s (cardSerial ownCard) = .active := by decide +kernel
theorem witness_HomeOperationTaken_unfreeze :
    let s := inHand { withCard with ctu := { withCard.ctu with cards := [(300, { ownRecord with state := .frozen })] } }
      (.homeOp (.unfreeze ownCard))
    takesLocal s = true ∧ homeCardTests s ownCard = none ∧ reported s (cardSerial ownCard) = .frozen := by decide +kernel
theorem witness_LocalRedeemTaken :
    let s := inHand withCard (.localReq (.redeem ownCard ownCheck 1200 true))
    takesLocal s = true ∧ cardMall ownCard = s.tp.config.mall ∧ isIssued (cardOf s (cardSerial ownCard)) = true ∧
      cardGen ownCard = (cardOf s (cardSerial ownCard)).gen ∧ ownCheck = checkOf s (cardSerial ownCard) ∧
      1200 ≤ s.tp.config.ceiling ∧ reported s (cardSerial ownCard) = .active ∧ holdsOn s (cardSerial ownCard) < 4 ∧
      freeHold s = some 0 ∧ 0 < available s (cardSerial ownCard) ∧ available s (cardSerial ownCard) < 1200 ∧
      2 ≤ sparePlaces s := by decide +kernel
theorem witness_LocalRedeemTaken_whole :
    let s := inHand withCard (.localReq (.redeem ownCard ownCheck 1000 false))
    takesLocal s = true ∧ freeHold s = some 0 ∧ 1000 ≤ available s (cardSerial ownCard) := by decide +kernel
theorem witness_LocalRedeemTaken_load :
    let s := inHand withCard (.localReq (.load ownCard ownCheck 499000))
    takesLocal s = true ∧ cardMall ownCard = s.tp.config.mall ∧ isIssued (cardOf s (cardSerial ownCard)) = true ∧
      cardGen ownCard = (cardOf s (cardSerial ownCard)).gen ∧ 1 ≤ sparePlaces s ∧ Table.rises s.ctu.cards = true ∧
      Table.rises s.tu.live = true ∧ ownCheck = checkOf s (cardSerial ownCard) ∧
      reported s (cardSerial ownCard) = .active ∧ (cardOf s (cardSerial ownCard)).balance + 499000 ≤ s.tp.config.ceiling := by
  decide +kernel
theorem witness_LocalRedeemTaken_return :
    let c : CapEntry := ⟨7, 31, 300, 500, 100, 211⟩
    let s := inHand { withCard with ctu := { withCard.ctu with capLog := ⟨[c], 1⟩ } } (.localReq (.ret ownCard 31 400))
    takesLocal s = true ∧ findCapture s (ownStation s) 31 = some c ∧ c.serial = cardSerial ownCard ∧
      c.returned + 400 ≤ c.amount ∧ reported s (cardSerial ownCard) ≠ .expired ∧ 1 ≤ sparePlaces s := by decide +kernel
theorem witness_LocalRedeemTaken_inquire :
    let s := inHand withCard (.localReq (.inquire ownCard ownCheck (some 31)))
    takesLocal s = true ∧ 1 ≤ sparePlaces s ∧ ownCheck = checkOf s (cardSerial ownCard) := by decide +kernel
theorem cardLaw_local (f : State → State) (hf : (f localState).ctu = localState.ctu)
    (hp : (f localState).ps.store = localState.ps.store) : cardLaw (f localState) := by
  have hc (k : Nat) : cardOf (f localState) k = cardOf localState k := by unfold cardOf; rw [hf]
  have hh (k : Nat) : heldOf (f localState) k = heldOf localState k := by unfold heldOf; rw [hf]
  have hl : liveHolds (f localState) = liveHolds localState := by unfold liveHolds; rw [hf]
  unfold cardLaw heldLaw grantsOn
  rw [hf, hp, hl]
  simp only [hc, hh]
  refine ⟨⟨by decide, by decide, fun k => ?_⟩, by decide, by decide, fun k => ?_⟩ <;> by_cases h : k = 300
  · subst h; decide
  · have h2 : ((300 : Nat) == k) = false := by simpa using Ne.symm h
    simp [heldOf, localState, withCard, base, liveHolds, Table.get, Table.find, ownHold, Ne.symm h, h2, blankCtu]
  · subst h; decide
  · simp [heldOf, cardOf, localState, withCard, Table.get, Table.find, Ne.symm h, blankCard]
theorem witness_LocalRedeemTaken_confirm :
    let s := inHand localState (.localReq (.confirm 33 400))
    takesLocal s = true ∧ cardLaw s ∧ Table.rises s.tu.live = true ∧ localHold s 33 = some (0, ownHold 2) ∧
      400 ≤ (ownHold 2).grant :=
  ⟨by decide +kernel, cardLaw_local (inHand · _) rfl rfl, by decide, by decide +kernel, by decide⟩
theorem witness_LocalRedeemTaken_cancel :
    let s := inHand { localState with ps := { localState.ps with queue := [plainRecord, grantedRecord] } }
      (.localReq (.cancel 33))
    takesLocal s = true ∧ cardLaw s ∧ localHold s 33 = some (0, ownHold 2) ∧
      s.ps.queue = [plainRecord] ++ grantedRecord :: [] ∧ (∀ y ∈ [plainRecord], grantedIn 33 y = false) ∧
      grantedIn 33 grantedRecord = true ∧ ∀ y ∈ (inHand localState (.localReq (.cancel 33))).ps.queue, grantedIn 33 y = false :=
  ⟨by decide +kernel, cardLaw_local (fun s => inHand { s with ps := { s.ps with queue := [plainRecord, grantedRecord] } } _) rfl rfl,
    by decide +kernel, by decide +kernel, by decide, by decide, by decide⟩
theorem witness_LocalRedeemTaken_gone : ∀ r ∈ [LocalReq.confirm 33 400, .cancel 33],
    takesLocal (inHand withCard (.localReq r)) = true ∧ localHold (inHand withCard (.localReq r)) 33 = none := by
  decide +kernel

/-- The checks of R40 pass for the card of these states. -/
theorem witness_cardPassesChecks : ∀ b ∈ [Body.hold 77 ownCard ownCheck 400 false, .post 77 ownCard ownCheck 1200 212 .offline,
    .load 77 ownCard ownCheck 499000, .ret 77 ownCard 70 400, .inquire 77 ownCard ownCheck (some 70)],
    cardPassesChecks (asked withCard 9 b) 9 ownCard ownCheck := by unfold cardPassesChecks; decide +kernel
theorem witness_HoldGranted :
    let s := asked withCard 9 (.hold 77 ownCard ownCheck 400 false)
    takesLine s = true ∧ s.tp.station = .joined ∧ s.lc.rx = [⟨9, .hold 77 ownCard ownCheck 400 false⟩] ∧
      reported s (cardSerial ownCard) = .active ∧ repeatedHold s 9 77 (cardSerial ownCard) = none ∧
      holdsOn s (cardSerial ownCard) < 4 ∧ freeHold s = some 0 ∧ 400 ≤ available s (cardSerial ownCard) := by
  decide +kernel
theorem witness_HoldGranted_split :
    let s := asked withCard 9 (.hold 77 ownCard ownCheck 1001 true)
    takesLine s = true ∧ 0 < available s (cardSerial ownCard) ∧ available s (cardSerial ownCard) < 1001 := by
  decide +kernel
/-- Both sources ready, the turn the till's: the HOLD waits while a SELL holds its place behind the forwarder's (R37, R126). -/
theorem test_turn_kept :
    let s := { asked (withEntry withCard (entry false)) 9 (.hold 77 ownCard ownCheck 400 false) with
      tp := { base.tp with busy := true, hand := some (.homeOp (.sell 5 none)) }
      ctu := { withCard.ctu with turn := .till }
      ps := { base.ps with waiting := [⟨.forwarder, true⟩, ⟨.ctuLocal, true⟩] } }
    granted s = some .forwarder ∧ lineReady s = true ∧ localReady s = true ∧ takesLine s = false ∧ takesLocal s = false := by
  decide +kernel
theorem witness_ClaimAndDrop_claim :
    let s := asked withHold 9 (.claim 77 ownCard 0x0001 400 false)
    takesLine s = true ∧ s.tp.station = .joined ∧ cardLaw s ∧ Table.rises s.tu.live = true ∧ isMember s 9 = true ∧
      cardHome ownCard = ownStation s ∧ captureRepeat s (cardSerial ownCard) 9 77 = false ∧
      claimHold s 9 77 ownCard 0x0001 = some (liveHold 400) :=
  ⟨by decide +kernel, by decide, cardLaw_withHold, by decide, by decide, by decide, by decide, by decide⟩
theorem witness_ClaimAndDrop_drop :
    let s := asked withHold 9 (.drop 77 0x0001)
    takesLine s = true ∧ s.tp.station = .joined ∧ cardLaw s ∧ namedHold s 0x0001 9 77 = some (liveHold 400) :=
  ⟨by decide +kernel, by decide, cardLaw_withHold, by decide⟩
theorem witness_PostTaken :
    let s := asked withCard 9 (.post 77 ownCard ownCheck 1200 212 .offline)
    takesLine s = true ∧ s.tp.station = .joined ∧ captureRepeat s (cardSerial ownCard) 9 77 = false ∧
      reported s (cardSerial ownCard) = .active ∧ 0 < min 1200 (available s (cardSerial ownCard)) := by decide +kernel
/-- A repeated POST that asks less than was taken is answered with reason UNKNOWN (R46). -/
theorem test_repeated_post : repeatedPost { withCard with ctu := { withCard.ctu with capLog :=
    ⟨[⟨9, 70, 300, 500, 0, 211⟩], 1⟩ } } 9 70 300 = .postOk 70 500 (shortfall24 300 500) .unknown 211 true := rfl
theorem witness_PostTaken_nothing :
    let s := asked { withHold with ctu := { withHold.ctu with held := [(300, 1000)] } } 9
      (.post 78 ownCard ownCheck 1 212 .late)
    takesLine s = true ∧ min 1 (available s (cardSerial ownCard)) = 0 ∧ reported s (cardSerial ownCard) = .active := by
  decide +kernel
theorem witness_LoadAndReturnTaken_load :
    let s := asked withCard 9 (.load 77 ownCard ownCheck 499000)
    takesLine s = true ∧ s.tp.station = .joined ∧ kindRepeat s (cardSerial ownCard) 9 77 .load = false ∧
      (cardOf s (cardSerial ownCard)).balance + 499000 ≤ s.tp.config.ceiling := by decide +kernel
theorem witness_LoadAndReturnTaken_return :
    let c : CapEntry := ⟨9, 70, 300, 500, 100, 211⟩
    let s := asked { withCard with ctu := { withCard.ctu with capLog := ⟨[c], 1⟩ } } 9 (.ret 77 ownCard 70 400)
    takesLine s = true ∧ kindRepeat s (cardSerial ownCard) 9 77 .ret = false ∧ findCapture s 9 70 = some c ∧
      c.serial = cardSerial ownCard ∧ c.returned + 400 ≤ c.amount ∧ reported s (cardSerial ownCard) ≠ .expired := by
  decide +kernel
theorem witness_InquireTaken :
    let s := asked withCard 9 (.inquire 77 ownCard ownCheck (some 70))
    takesLine s = true ∧ s.tp.station = .joined ∧ s.ps.queue = [] ∧
      takesLine { s with ps := { s.ps with queue := [⟨[.tagSeq 5], []⟩] } } = true := by decide +kernel

/-- A REDEEM on the card of station 12. -/
def redeemReq : OpenReq := ⟨.redeem, farCard, 0, 500, false, false, 0, none⟩
theorem witness_SlotOpened :
    let s := inHand base (.opening redeemReq)
    granted s = some .opening ∧ s.lc.line = .active ∧ freeSlotNumber s = some 0 ∧ 1 ≤ txFree s .c2 := by decide +kernel
theorem witness_SlotOpened_busy :
    let s := inHand { base with lc := { base.lc with tx2 := ⟨[], 8⟩ } } (.opening redeemReq)
    granted s = some .opening ∧ freeSlotNumber s = some 0 ∧ txFree s .c2 = 0 := by decide +kernel
/-- A slot's withdrawn request is its own, not the frame of an earlier slot of its number (R69). -/
theorem test_withdraw_request :
    let f (t : Tag) : PostingRecord := ⟨[.tagSeq t], [.slotFrame 0 t 12 (.drop t 0)]⟩
    let s := { base with ps := { base.ps with queue := [f 32, f 33] }, lc := { base.lc with tx2 := ⟨[], 2⟩ } }
    (withdrawRequest 0 33 s).ps.queue = [f 32, ⟨[.tagSeq 33], []⟩] ∧ (withdrawRequest 0 33 s).lc.tx2.reserved = 1 := by
  decide +kernel
theorem witness_SlotOpened_silent : ∀ l ∈ [LineState.silent, .stuck],
    let s := inHand { base with lc := { base.lc with line := l } } (.opening redeemReq)
    granted s = some .opening ∧ s.tp.hand = some (.opening redeemReq) ∧ redeemReq.kind = .redeem ∧
      redeemReq.offline = false ∧ s.lc.line = l ∧ freeSlotNumber s = some 0 := by decide +kernel
theorem witness_RefundTaken :
    let s := inHand { base with dq := { base.dq with area := ⟨[entry false], 500⟩ } } (.dqReturn farCard 44 500)
    granted s = some .dqReturn ∧ entryTagged s 44 = some (entry false) ∧ 1 ≤ sparePlaces s := by decide +kernel

/-- A slot with a pending step. -/
def stepping (k : SlotKind) (st : SlotState) (w : SlotStep) : Slot := { slot k st with pending := some w }
theorem witness_SlotSteps_offline :
    let s := withSlot base (stepping .redeem .asking .offline)
    slotAt s 0 = some (stepping .redeem .asking .offline) ∧ granted s = some (.slot 0) ∧
      500 + cardOffline s.dq.area.entries farCard ≤ s.tp.config.cardLimit ∧
      s.dq.area.exposure + 500 ≤ s.tp.config.stationCap := by decide +kernel
theorem witness_SlotSteps_limit :
    let s := withSlot { base with tp := { base.tp with config := { config with cardLimit := 499 } } }
      (stepping .redeem .asking .offline)
    granted s = some (.slot 0) ∧ s.tp.config.cardLimit < 500 + cardOffline s.dq.area.entries farCard := by decide +kernel
theorem witness_SlotSteps_full :
    let q := { base with dq := { base.dq with area := ⟨(List.range 64).map fun i => { entry false with
      origin := .late, tag := BitVec.ofNat 16 (100 + i) }, 0⟩ } }
    let s := withSlot q (stepping .redeem .asking .offline)
    granted s = some (.slot 0) ∧ 64 ≤ s.dq.area.entries.length ∧
      500 + cardOffline s.dq.area.entries farCard ≤ s.tp.config.cardLimit ∧
      let u := withSlot { base with tp := { base.tp with config := { config with stationCap := 499 } } }
        (stepping .redeem .asking .offline)
      granted u = some (.slot 0) ∧ u.tp.config.stationCap < u.dq.area.exposure + 500 := by decide +kernel
theorem witness_SlotSteps_late : ∀ w ∈ [SlotStep.deferLate, .deferRetry],
    let s := withSlot base { stepping .redeem .claiming w with hold := some (0x0102, 400) }
    slotAt s 0 = some { stepping .redeem .claiming w with hold := some (0x0102, 400) } ∧ granted s = some (.slot 0) := by
  decide +kernel
theorem witness_SlotSteps_filing :
    let w : SlotStep := .file .redemption 500 (some 212) (plainNotice 33 farCard .captured)
    let s := withSlot base (stepping .redeem .notifying w)
    granted s = some (.slot 0) ∧ s.tu.liveDay = some 212 ∧ Table.rises s.tu.live = true ∧
      Table.rises s.tu.closing = true ∧ Table.rises s.tu.marks = true := by decide +kernel
/-- Station 7 with a filing of day 211 pending, in this round and round state. -/
def filing (round : RoundPart) (st : RoundState) : State :=
  withSlot { base with tu := { base.tu with round := round, state := st } }
    (stepping .redeem .notifying (.file .redemption 500 (some 211) (plainNotice 33 farCard .captured)))
theorem witness_SlotSteps_other_days :
    (let s := filing ⟨some 211, 0x200, false⟩ .tallying
     granted s = some (.slot 0) ∧ s.tu.liveDay ≠ some 211 ∧ s.tu.round.day = some 211 ∧ inSet s.tu.round.sent 12 = false) ∧
    (let s := filing ⟨none, 0, false⟩ .live
     granted s = some (.slot 0) ∧ s.tu.liveDay ≠ some 211 ∧ s.tu.round.day = none) ∧
    (∀ st ∈ [RoundState.computing, .settled, .tallying],
      let s := filing ⟨some 211, 0x1200, false⟩ st
      granted s = some (.slot 0) ∧ s.tu.liveDay ≠ some 211 ∧ s.tu.round.day ≠ none ∧ inSet s.tu.round.sent 12 = true ∧
        markOf s 12 ≠ .disputed ∧ isMember s 12 = true) := by decide +kernel
theorem witness_SlotSteps_notice :
    let s := { withSlot base (slot .redeem .notifying) with su := { (withSlot base (slot .redeem .notifying)).su with
      due := [⟨plainNotice 33 farCard .noAnswer, some 0, true⟩] } }
    1 ≤ freePlaces s ∧ isOpen s = true ∧ Table.rises s.su.slots = true := by decide +kernel
theorem witness_ForwarderAndPendingStep :
    let s := withEntry base (entry false)
    granted s = some .forwarder ∧ eligible s = some (entry false) := by decide +kernel
theorem witness_ForwarderAndPendingStep_back :
    let s := withEntry { base with dq := { base.dq with pending := some .backToWaiting } } (entry true)
    granted s = some .dqPending ∧ s.dq.pending = some .backToWaiting ∧ sentEntry s = some (entry true) := by
  decide +kernel

theorem witness_RequestReceived :
    let b := Body.hold 77 ownCard 0 400 false
    let f := makeFrame 2 true 9 7 b
    hearing following = true ∧ following.lc.line ≠ .stuck ∧ takenBody f = some b ∧ isRequest b = true ∧
      f.src ≠ ownStation following ∧ f.dst = ownStation following ∧ takenBody { f with crc := f.crc + 1 } = none := by
  decide +kernel

/-- Station 7 hears station 12. -/
theorem hears_far {b : Body} (sl : Slot) (h : addressOk 12 7 b = true) : hears (withSlot following sl) 12 7 b :=
  have hh : (withSlot following sl).lc = following.lc ∧ hearing (withSlot following sl) = hearing following ∧
      ownStation (withSlot following sl) = 7 := ⟨rfl, rfl, rfl⟩
  ⟨by rw [hh.2.1]; decide, by rw [hh.1]; decide, h, by rw [hh.2.2]; decide, .inl hh.2.2.symm, by rw [hh.1]; decide⟩
theorem witness_RedeemAnswers_asking :
    let s := withSlot following (slot .redeem .asking)
    hears s 12 7 (.holdOk 33 0x0102 400 100 true) ∧
      slotTaking s 12 (.holdOk 33 0x0102 400 100 true) = some (0, slot .redeem .asking) ∧
      hears s 12 7 (.holdNo 33 .funds 20) ∧ slotTaking s 12 (.holdNo 33 .funds 20) = some (0, slot .redeem .asking) :=
  ⟨hears_far _ (by decide), by decide +kernel, hears_far _ (by decide), by decide +kernel⟩
theorem witness_RedeemAnswers_degraded :
    let sl := { slot .redeem .asking with offline := true }
    let s := withSlot following sl
    hears s 12 7 (.holdNo 33 .degraded 0) ∧ slotTaking s 12 (.holdNo 33 .degraded 0) = some (0, sl) ∧
      granted (slotWaits s (countingLc s) 0 { sl with reply := none, pending := some .offline }) = some (.slot 0) :=
  ⟨hears_far _ (by decide), by decide +kernel, by decide +kernel⟩
theorem witness_RedeemAnswers_deferred : ∀ r ∈ [Reason.late, .unknown, .degraded],
    let sl := { slot .redeem .claiming with hold := some (0x0102, 400) }
    let s := withSlot following sl
    hears s 12 7 (.claimNo 33 r) ∧ slotTaking s 12 (.claimNo 33 r) = some (0, sl) := by
  intro r hr
  refine ⟨hears_far _ ?_, ?_⟩ <;> revert r <;> decide +kernel
theorem witness_RedeemAnswers_claiming :
    let sl := { slot .redeem .claiming with hold := some (0x0102, 400) }
    let s := withSlot following sl
    hears s 12 7 (.claimOk 33 400 212 false) ∧ slotTaking s 12 (.claimOk 33 400 212 false) = some (0, sl) ∧
      hears s 12 7 (.claimNo 33 .amount) ∧ slotTaking s 12 (.claimNo 33 .amount) = some (0, sl) ∧
      hears s 12 7 (.stall 33) ∧ slotTaking s 12 (.stall 33) = some (0, sl) ∧ s.tp.config.waitMode ≤ 2 :=
  ⟨hears_far _ (by decide), by decide +kernel, hears_far _ (by decide), by decide +kernel, hears_far _ (by decide),
    by decide +kernel, by decide +kernel⟩
theorem witness_OtherAnswers_load :
    let s := withSlot following (slot .load .checking)
    hears s 12 7 (.loadOk 33 900 212 false) ∧ slotTaking s 12 (.loadOk 33 900 212 false) = some (0, slot .load .checking) ∧
      hears s 12 7 (.balance 33 .active 900 900 .foundLoad) ∧
      slotTaking s 12 (.balance 33 .active 900 900 .foundLoad) = some (0, slot .load .checking) ∧
      hears s 12 7 (.balance 33 .active 900 900 .notFound) ∧
      slotTaking s 12 (.balance 33 .active 900 900 .notFound) = some (0, slot .load .checking) ∧
      hears s 12 7 (.loadNo 33 .ceiling) ∧ slotTaking s 12 (.loadNo 33 .ceiling) = some (0, slot .load .checking) ∧
      hears s 12 7 (.inquireNo 33 .degraded) ∧
      slotTaking s 12 (.inquireNo 33 .degraded) = some (0, slot .load .checking) :=
  ⟨hears_far _ (by decide), by decide +kernel, hears_far _ (by decide), by decide +kernel, hears_far _ (by decide),
    by decide +kernel, hears_far _ (by decide), by decide +kernel, hears_far _ (by decide), by decide +kernel⟩
theorem witness_OtherAnswers_return :
    let s := withSlot following (slot .ret .asking)
    hears s 12 7 (.returnOk 33 900 212) ∧ slotTaking s 12 (.returnOk 33 900 212) = some (0, slot .ret .asking) ∧
      hears s 12 7 (.returnNo 33 .over) ∧ slotTaking s 12 (.returnNo 33 .over) = some (0, slot .ret .asking) :=
  ⟨hears_far _ (by decide), by decide +kernel, hears_far _ (by decide), by decide +kernel⟩
theorem witness_OtherAnswers_inquire :
    let s := withSlot following (slot .inquire .asking)
    hears s 12 7 (.balance 33 .frozen 900 900 .notAsked) ∧
      slotTaking s 12 (.balance 33 .frozen 900 900 .notAsked) = some (0, slot .inquire .asking) ∧
      hears s 12 7 (.inquireNo 33 .check) ∧ slotTaking s 12 (.inquireNo 33 .check) = some (0, slot .inquire .asking) :=
  ⟨hears_far _ (by decide), by decide +kernel, hears_far _ (by decide), by decide +kernel⟩

/-- Station 7 hears any station while it follows a frame. -/
theorem hears_sent (e : DeferredEntry) {src dst : Station} {b : Body} (h : addressOk src dst b = true) (hs : src ≠ 7)
    (hd : dst = 7 ∨ dst = 63) : hears (withEntry following e) src dst b :=
  have hh : (withEntry following e).lc = following.lc ∧ hearing (withEntry following e) = hearing following ∧
      ownStation (withEntry following e) = 7 := ⟨rfl, rfl, rfl⟩
  ⟨by rw [hh.2.1]; decide, by rw [hh.1]; decide, h, hh.2.2 ▸ hs, hh.2.2 ▸ hd, by rw [hh.1]; decide⟩
theorem witness_DeferredAnswers_post :
    let s := withEntry following (entry true)
    isJoined s = true ∧ Table.rises s.dq.backoff = true ∧ hears s 12 7 (.postOk 44 400 100 .funds 212 false) ∧
      slotTaking s 12 (.postOk 44 400 100 .funds 212 false) = none ∧
      dqTaking s 12 (.postOk 44 400 100 .funds 212 false) = some (entry true) ∧ hears s 12 7 (.postNo 44 .degraded) ∧
      dqTaking s 12 (.postNo 44 .degraded) = some (entry true) :=
  ⟨by decide +kernel, by decide +kernel, hears_sent _ (by decide) (by decide) (.inl rfl), by decide +kernel,
    by decide +kernel, hears_sent _ (by decide) (by decide) (.inl rfl), by decide +kernel⟩

theorem witness_DeferredAnswers_stall :
    let s := withEntry { following with dq := { following.dq with reply := some 100 } } (entry true)
    dqTaking s 12 (.stall 44) = some (entry true) ∧ slotTaking s 12 (.stall 44) = none ∧ s.tp.config.waitMode ≤ 2 ∧
      hears (withEntry following (entry true)) 12 7 (.stall 44) :=
  ⟨by decide +kernel, by decide +kernel, by decide, hears_sent _ (by decide) (by decide) (.inl rfl)⟩

/-- A SENT CLAIM-RETRY on the card of station 12. -/
def retry : DeferredEntry := ⟨.claimRetry, .none, farCard, 0, 500, 44, some 0x0102, 212, true, 0⟩
theorem witness_DeferredAnswers_claim :
    let s := withEntry following retry
    hears s 12 7 (.claimOk 44 500 212 false) ∧ slotTaking s 12 (.claimOk 44 500 212 false) = none ∧
      dqTaking s 12 (.claimOk 44 500 212 false) = some retry ∧ hears s 12 7 (.claimNo 44 .degraded) ∧
      dqTaking s 12 (.claimNo 44 .degraded) = some retry ∧ hears s 12 7 (.claimNo 44 .late) ∧
      dqTaking s 12 (.claimNo 44 .late) = some retry :=
  ⟨hears_sent _ (by decide) (by decide) (.inl rfl), by decide +kernel, by decide +kernel,
    hears_sent _ (by decide) (by decide) (.inl rfl), by decide +kernel,
    hears_sent _ (by decide) (by decide) (.inl rfl), by decide +kernel⟩
theorem witness_TallyArrivals : following.tp.station = .joined ∧ isMember following 9 = true ∧
    hears following 9 63 (.tallyOpen 212) ∧ following.tu.liveDay = some 212 ∧ hears following 9 63 (.tallyOpen 213) ∧
    hears { following with tu := { following.tu with round := ⟨some 211, 0, false⟩ } } 9 7 (.tally 211 blankLine) :=
  ⟨by decide, by decide, ⟨by decide, by decide, by decide, by decide, by decide, by decide⟩, by decide,
    ⟨by decide, by decide, by decide, by decide, by decide, by decide⟩,
    ⟨by decide, by decide, by decide, by decide, by decide, by decide⟩⟩

/-- A queued frame, and station 7 sending it in class 2. -/
def frame (clash : Nat) : TxFrame := ⟨12, .stall 5, 7, clash⟩
def sendingFrame (clash : Nat) : State :=
  { base with lc := { base.lc with tx2 := ⟨[frame clash], 0⟩, sending := some .c2, receiver := .following } }
theorem witness_LineEvents_start :
    let s := { base with lc := { base.lc with tx2 := ⟨[frame 0], 0⟩ } }
    isUp s = true ∧ s.lc.line = .active ∧ s.lc.receiver = .idle ∧ s.lc.sending = none ∧ (txOf s.lc .c2).frames ≠ [] ∧
      ∀ d : TxClass, (classBits d).toNat < (classBits .c2).toNat → (txOf s.lc d).frames = [] := by
  refine ⟨by decide, by decide, by decide, by decide, by decide, fun d => ?_⟩
  cases d <;> decide
theorem witness_LineEvents_sending : (sendingFrame 0).lc.sending = some .c2 ∧
    (txOf (sendingFrame 0).lc .c2).frames = [frame 0] ∧ (frame 0).clash = 0 ∧ (frame 1).clash = 1 ∧
    (sendingFrame 1).lc.line = .active ∧ (sendingFrame 1).su.slots = [] := by decide
theorem witness_LineEvents_own :
    let raw := makeFrame 2 true 7 12 (.stall 5)
    takenBody raw = some (.stall 5) ∧ raw.src = ownStation following ∧ hearing following = true ∧
      following.lc.line = .active ∧ following.su.slots = [] := by decide +kernel
theorem witness_LineEvents_symbol : isUp base = true ∧ base.lc.line ≠ .off ∧ base.lc.receiver = .idle := by decide
theorem witness_LineEvents_gap :
    let s := { base with lc := { base.lc with line := .stuck, receiver := .counting } }
    isUp s = true ∧ s.lc.line ≠ .off ∧ s.lc.receiver ≠ .following := by decide
theorem witness_LineEvents_stuck :
    let s := withSlot { base with lc := { base.lc with receiver := .counting, stuck := 0 } } (slot .redeem .asking)
    isUp s = true ∧ s.lc.line = .active ∧ s.lc.stuck = 0 ∧ s.su.slots = [(0, slot .redeem .asking)] := by decide +kernel

theorem witness_TimerExpiries_hold :
    let h := { liveHold 400 with life := 0 }
    let s := { withHold with ctu := { withHold.ctu with holds := [(255, ⟨1, some h⟩)] } }
    (holdAt s 255).live = some h ∧ isOpen s = true ∧ Table.rises s.ctu.holds = true ∧ Table.rises s.ctu.held = true := by
  decide +kernel
theorem witness_TimerExpiries_local :
    let h := { ownHold 2 with life := 0 }
    let s (q : List PostingRecord) : State := { localState with
      ctu := { localState.ctu with holds := [(255, ⟨1, some h⟩)] }, ps := { localState.ps with queue := q } }
    ∀ q ∈ [[plainRecord], [plainRecord, grantedRecord]], (holdAt (s q) 255).live = some h ∧ isOpen (s q) = true ∧
      Table.rises (s q).ctu.holds = true ∧ Table.rises (s q).ctu.held = true ∧ h.places ≠ 0 ∧
      grantedIn h.tag plainRecord = false ∧ grantedIn h.tag grantedRecord = true := by decide +kernel
theorem witness_TimerExpiries_tick : base.tp.refCount + 1 < base.tp.divisor ∧
    let s := { base with tp := { base.tp with refCount := 7999 } }
    s.tp.divisor ≤ s.tp.refCount + 1 := by decide
theorem witness_TimerExpiries_offline :
    let sl := { slot .redeem .asking with offline := true, reply := some 0 }
    let s := withSlot base sl
    slotAt s 0 = some sl ∧ sl.pending = none ∧ isJoined s = true ∧
      granted (slotWaits s s.lc 0 { sl with reply := none, pending := some .offline }) = some (.slot 0) := by decide +kernel
theorem witness_TimerExpiries_reply : ∀ x ∈ [(SlotKind.redeem, SlotState.asking), (.inquire, .asking), (.ret, .asking),
      (.load, .checking), (.load, .asking), (.redeem, .claiming)],
    let sl := { slot x.1 x.2 with reply := some 0 }
    let s := withSlot base sl
    slotAt s 0 = some sl ∧ sl.pending = none ∧ isJoined s = true ∧ 1 ≤ txFree s .c2 := by decide +kernel
theorem witness_TimerExpiries_slotHold :
    let sl := { slot .redeem .held with hold := some (0x0102, 400), holdTimer := some 0 }
    slotAt (withSlot base sl) 0 = some sl ∧ isJoined (withSlot base sl) = true := by decide +kernel
theorem witness_TimerExpiries_queue :
    let s := withEntry { base with dq := { base.dq with reply := some 0, backoff := [(9, ⟨2, some 0⟩)] } } (entry true)
    sentEntry s = some (entry true) ∧ s.dq.reply = some 0 ∧ s.dq.pending = none ∧ isJoined s = true ∧
      (backoffOf s 9).time = some 0 ∧ isOpen s = true ∧ Table.rises s.dq.backoff = true := by decide +kernel
theorem witness_TimerExpiries_round :
    let s := { base with tu := { base.tu with state := .quiet, quiet := some 0 } }
    let t := { base with tu := { base.tu with state := .tallying, tally := some 0 } }
    s.tu.state = .quiet ∧ s.tu.quiet = some 0 ∧ isJoined s = true ∧ t.tu.state = .tallying ∧ t.tu.tally = some 0 ∧
      isJoined t = true := by decide

theorem witness_StoreEvents :
    let r : PostingRecord := ⟨[.card 300 ownRecord, .capLog ⟨[], 0⟩, .pairLive 9 blankLine],
      [.answer 9 (.claimOk 77 400 212 false)]⟩
    let s := { base with ps := { base.ps with queue := [r] } }
    isRunning s = true ∧ s.tp.startup = .none ∧ s.ps.queue = [r] ∧ s.tp.hand = none ∧ s.ps.timer = 0 := by decide +kernel
theorem witness_StoreEvents_areas : Table.rises blankStore.cards = true ∧ Table.rises blankStore.live = true ∧
    Table.rises blankStore.closing = true ∧ Table.rises blankStore.marks = true := by decide
theorem witness_StoreEvents_release :
    (Notice.outcome { plainNotice 33 ownCard .granted with amountA := 400 } = .granted) ∧
    localHold localState 33 = some (0, ownHold 2) ∧ Table.rises localState.ctu.holds = true ∧
    slotAt (withSlot base (slot .redeem .asking)) 0 = some (slot .redeem .asking) ∧
    sentEntry (withEntry base (entry true)) = some (entry true) ∧ sentEntry base = none := by decide +kernel
/-- A store fault meets the GRANTED of a local hold, a LOSS, an answer, a slot with its notice due and one without. -/
theorem witness_StoreEvents_fault :
    let s := { localState with
      tp := { localState.tp with busy := true, hand := some .settle }
      su := { localState.su with
        slots := [(0, slot .redeem .notifying), (1, { slot .load .asking with tag := 34 })]
        due := [⟨plainNotice 33 farCard .captured, some 0, true⟩] }
      ps := { localState.ps with queue := [{ grantedRecord with deps := grantedRecord.deps ++
        [.answer 9 (.claimOk 77 400 212 false), .loss (plainNotice 44 farCard .loss)] }, plainRecord] } }
    isRunning s = true ∧ s.tp.startup = .none ∧ s.ps.timer = 0 ∧ Table.rises s.su.slots = true ∧
      Table.rises s.ctu.holds = true ∧ Table.rises s.ctu.held = true ∧
      (liveHolds s).filter (fun e => decide (e.2.places ≠ 0)) = [(0, ownHold 2)] := by decide +kernel

theorem witness_RoundSteps_opening :
    let s := settleWaiting { base with tu := { base.tu with opening := some ⟨212, true, true⟩ } }
    granted s = some .roundOpening ∧ s.tu.liveDay = some 212 := by decide +kernel
theorem witness_RoundSteps_open_entry :
    let s := { base with tu := { base.tu with heldOpen := some ⟨212, true⟩ } }
    s.tu.heldOpen = some ⟨212, true⟩ ∧ 1 ≤ txFree s .c1 ∧ isJoined s = true := by decide

/-- Station 7 in TALLYING with station 9 to send to. -/
def tallying (sent : StationSet) : State := settleWaiting { base with tu := { base.tu with
  state := .tallying, round := ⟨some 211, sent, false⟩, sendList := [9] } }
theorem witness_RoundSteps_tally : tallyReady (tallying 0) = true ∧ granted (tallying 0) = some .tally ∧
    figuresOf (tallying 0) 9 = none ∧ inSet (tallying 0).tu.round.sent 9 = false ∧ tallyReady (tallying 0x200) = true ∧
    inSet (tallying 0x200).tu.round.sent 9 = true ∧ (tallying 0).tu.cutShort = false := by decide +kernel
theorem witness_RoundSteps_tally_figures :
    let s := settleWaiting { tallying 0 with tu := { (tallying 0).tu with figures := [(9, blankLine)] } }
    tallyReady s = true ∧ granted s = some .tally ∧ figuresOf s 9 = some blankLine ∧ Table.rises s.tu.marks = true := by
  decide +kernel
/-- Station 7 in this round state, with the figures of station 12 received. -/
def receiving (st : RoundState) (sent : StationSet) : State := settleWaiting { base with tu := { base.tu with
  state := st, round := ⟨some 211, sent, false⟩, inbound := [⟨12, blankLine⟩] } }
theorem witness_RoundSteps_reception : ∀ x ∈ [(RoundState.tallying, (0x200 : StationSet), false), (.tallying, 0x1200, true),
      (.computing, 0x1200, true), (.settled, 0x1200, true)],
    granted (receiving x.1 x.2.1) = some (.reception 12) ∧ inSet (receiving x.1 x.2.1).tu.round.sent 12 = x.2.2 ∧
      Table.rises (receiving x.1 x.2.1).tu.marks = true := by decide +kernel
theorem witness_RoundSteps_cut :
    let s := settleWaiting { tallying 0 with tu := { (tallying 0).tu with sendList := [], cutShort := true } }
    granted s = some .cutShort ∧ s.tu.cutShort = true ∧ Table.rises s.tu.marks = true ∧ 9 ∈ memberPeers s ∧
      inSet s.tu.round.sent 9 = false := by decide +kernel

/-- The inputs of a computation with no peers. -/
def noPeers : ComputeInputs := ⟨211, [], blankLine, 150⟩
theorem witness_RoundSteps_payout :
    let s := { base with tu := { base.tu with state := .computing, computing := some noPeers } }
    let t := settleWaiting { base with tu := { base.tu with state := .computing, result := some (computePayout noPeers false) } }
    s.tu.computing = some noPeers ∧ isJoined s = true ∧ granted t = some .payout := by decide +kernel

end Sys2Proof.Tests
end

/-! ## Byte fields (R1) -/
namespace Sys2Proof
open Machine

@[simp] theorem length_bytesOf : ∀ n v : Nat, (bytesOf n v).length = n
  | 0, _ => rfl
  | n + 1, v => by simp [bytesOf, length_bytesOf n v]

/-- n bytes hold a value modulo 256^n (R1). -/
theorem natOf_bytesOf : ∀ n v : Nat, natOf (bytesOf n v) = v % 256 ^ n
  | 0, v => by simp [bytesOf, natOf, Nat.mod_one]
  | n + 1, v => by
    have e : v % 256 ^ (n + 1) = v % 256 ^ n + 256 ^ n * (v / 256 ^ n % 256) := Nat.mod_pow_succ
    rw [e]
    simp only [bytesOf, natOf, length_bytesOf, natOf_bytesOf n v, BitVec.toNat_ofNat]
    rw [Nat.add_comm, Nat.mul_comm]

/-- A field behind a run of bytes is read behind it. -/
@[simp] theorem fieldAt_append_right (xs ys : List Byte) (i n : Nat) (h : xs.length ≤ i) :
    fieldAt (xs ++ ys) i n = fieldAt ys (i - xs.length) n := by
  simp [fieldAt, List.drop_append, List.drop_eq_nil_of_le h]

/-- A field that lies inside a run of bytes is not touched by what follows. -/
theorem fieldAt_append_left (xs ys : List Byte) (i n : Nat) (h : i + n ≤ xs.length) :
    fieldAt (xs ++ ys) i n = fieldAt xs i n := by
  unfold fieldAt
  rw [List.drop_append_of_le_length (by omega), List.take_append_of_le_length (by simp; omega)]

@[simp] theorem fieldAt_cons_zero (b : Byte) (xs : List Byte) : fieldAt (b :: xs) 0 1 = b.toNat := by
  simp [fieldAt, natOf]

@[simp] theorem fieldAt_cons_succ (b : Byte) (xs : List Byte) (i n : Nat) (h : 1 ≤ i) :
    fieldAt (b :: xs) i n = fieldAt xs (i - 1) n := fieldAt_append_right [b] xs i n h

/-- A value written as a field wide enough for it is read back. -/
@[simp] theorem fieldAt_bytesOf {w : Nat} (n : Nat) (x : BitVec w) (h : 2 ^ w ≤ 256 ^ n) :
    fieldAt (bytesOf n x.toNat) 0 n = x.toNat := by
  have e : (bytesOf n x.toNat).take n = bytesOf n x.toNat := List.take_of_length_le (by simp)
  simp only [fieldAt, List.drop_zero, e, natOf_bytesOf]
  exact Nat.mod_eq_of_lt (x.isLt.trans_le h)

@[simp] theorem fieldAt_bytesOf_append {w : Nat} (n : Nat) (x : BitVec w) (ys : List Byte) (h : 2 ^ w ≤ 256 ^ n) :
    fieldAt (bytesOf n x.toNat ++ ys) 0 n = x.toNat := by
  rw [fieldAt_append_left _ _ _ _ (by simp), fieldAt_bytesOf n x h]

/-- Bit 0 of a flag byte is the flag. -/
@[simp] theorem flagByte_mod_two (b : Bool) : (flagByte b).toNat % 2 = 1 ↔ b = true := by cases b <;> decide

@[simp] theorem length_figureBytes (f : Figure) : (figureBytes f).length = 8 := by simp [figureBytes]
@[simp] theorem length_blockBytes (l : PairLine) : (blockBytes l).length = 48 := by simp [blockBytes]

/-- A figure is read back from its 8 bytes (R8). -/
@[simp] theorem figureAt_figureBytes (f : Figure) (ys : List Byte) : figureAt (figureBytes f ++ ys) 0 = f := by
  simp [figureAt, figureBytes, List.append_assoc]

@[simp] theorem figureAt_append_right (xs ys : List Byte) (i : Nat) (h : xs.length ≤ i) :
    figureAt (xs ++ ys) i = figureAt ys (i - xs.length) := by
  simp [figureAt, h, Nat.le_add_right_of_le h, Nat.sub_add_comm h]

/-- A figure block is read back from its 48 bytes (R8). -/
theorem blockAt_blockBytes (xs : List Byte) (l : PairLine) : blockAt (xs ++ blockBytes l) xs.length = l := by
  have e : figureAt (figureBytes l.actLoad) 0 = l.actLoad := by simpa using figureAt_figureBytes l.actLoad []
  simp [blockAt, blockBytes, List.append_assoc, e]

/-- A reason carried on the line is read back from its code (R7, R14). -/
@[simp] theorem lineReasonOf_reasonCode (r : Reason) (h : lineReason r = true) :
    lineReasonOf (reasonCode r).toNat = some r := by
  have e : reasons[(reasonCode r).toNat]? = some r := by cases r <;> rfl
  simp [lineReasonOf, e, h]

@[simp] theorem cardStateOf_cardStateCode (c : CardState) : cardStateOf (cardStateCode c).toNat = some c := by
  cases c <;> rfl

@[simp] theorem tagResultOf_tagResultCode (q : TagResult) : tagResultOf (tagResultCode q).toNat = some q := by
  cases q <;> rfl

@[simp] theorem originOf_originCode (o : Origin) (h : o ≠ .none) : originOf (originCode o).toNat = some o := by
  cases o with
  | none => exact absurd rfl h
  | offline => rfl
  | late => rfl

/-- The bytes of a body decode to it, kind by kind: each field is read at the place R6 gives it. -/
theorem decodeBody_bodyBytes (b : Body) (h : codedFieldsOk b = true) : decodeBody (bodyKind b) (bodyBytes b) = some b := by
  cases b with
  | inquire t c k q => cases q <;> simp [bodyKind, bodyBytes, decodeBody]
  | tally d l =>
    have e := blockAt_blockBytes (bytesOf 2 d.toNat) l
    simp at e
    simp [bodyKind, bodyBytes, decodeBody, e]
  | _ =>
    simp [codedFieldsOk] at h
    simp [bodyKind, bodyBytes, decodeBody, h]


/-- No body is longer than the 56 bytes a receiver takes (R5, R6). -/
theorem length_bodyBytes_le (b : Body) : (bodyBytes b).length ≤ 56 := by
  cases b with
  | inquire t c k q => cases q <;> simp [bodyBytes]
  | _ => simp [bodyBytes]

/-- A frame as made carries the CRC of its own header and body (R5): the CRC does not read the CRC field. -/
theorem makeFrame_crc (cls : BitVec 2) (ordinary : Bool) (src dst : Station) (b : Body) :
    (makeFrame cls ordinary src dst b).crc = frameCrc (makeFrame cls ordinary src dst b) := by
  simp only [makeFrame, frameCrc, headerBits]

theorem makeFrame_len (cls : BitVec 2) (ordinary : Bool) (src dst : Station) (b : Body) :
    (makeFrame cls ordinary src dst b).len.toNat = (bodyBytes b).length := by
  have hl := length_bodyBytes_le b
  simp only [makeFrame, BitVec.toNat_ofNat]
  exact Nat.mod_eq_of_lt (by omega)

/-- A frame made for a body is taken as that body: its CRC matches, its length fits, its body decodes (R5, R6, R9). -/
theorem takenBody_makeFrame (cls : BitVec 2) (ordinary : Bool) (src dst : Station) (b : Body)
    (h : addressOk src dst b = true) : takenBody (makeFrame cls ordinary src dst b) = some b := by
  have hc : codedFieldsOk b = true := by
    simp only [addressOk, Bool.and_eq_true] at h
    exact h.2
  have hd : decodeBody (makeFrame cls ordinary src dst b).kind (makeFrame cls ordinary src dst b).body = some b :=
    decodeBody_bodyBytes b hc
  have ha : addressOk (makeFrame cls ordinary src dst b).src (makeFrame cls ordinary src dst b).dst b = true := h
  have ht : (makeFrame cls ordinary src dst b).crc = frameCrc (makeFrame cls ordinary src dst b) ∧
      (makeFrame cls ordinary src dst b).len.toNat ≤ 56 ∧
      (makeFrame cls ordinary src dst b).body.length = (makeFrame cls ordinary src dst b).len.toNat :=
    ⟨makeFrame_crc .., by rw [makeFrame_len]; exact length_bodyBytes_le b, (makeFrame_len ..).symm⟩
  rw [takenBody, if_pos ht, hd, Option.filter_some, if_pos ha]

/-! ## Command records (R10, R11) -/

/-- A transfer that carries a whole record writes the command the record spells (R10). -/
theorem writtenCommand_commandTransfer (code seq : Byte) (ps : List Byte) (h : ps.length < 256) :
    writtenCommand (commandTransfer code seq ps) = some (decodeCommand code seq ps) := by
  simp [writtenCommand, commandTransfer, Nat.mod_eq_of_lt h]

@[simp] theorem length_configBytes (p : ConfigParams) : (configBytes p).length = 40 := by simp [configBytes]

@[simp] theorem decodeConfig_configBytes (p : ConfigParams) : decodeConfig (configBytes p) = p := by
  simp [decodeConfig, configBytes, List.append_assoc]

/-- The record of a well-formed till command has its length in one byte and decodes to the command, constructor by
constructor: each parameter is read at the place R11 gives it. -/
theorem decodeCommand_encodeCommand {c : Instr} {code seq : Byte} {ps : List Byte} (hw : c.wellFormed = true)
    (h : encodeCommand c = some (code, seq, ps)) : ps.length < 256 ∧ decodeCommand code seq ps = c := by
  cases c with
  | malformed k q l =>
    cases h
    simp only [Instr.wellFormed, wfMalformed, Bool.and_eq_true, decide_eq_true_eq] at hw
    obtain ⟨hlen, hbyte⟩ := hw
    exact ⟨hbyte, by rw [decodeCommand, if_neg hlen]⟩
  | sell q a e => cases e <;> cases h <;> simp [decodeCommand, paramLength]
  | inquire q k a t => cases t <;> cases h <;> simp [decodeCommand, paramLength]
  | redeem q card k a split offline =>
    cases h
    cases split <;> cases offline <;> simp [decodeCommand, paramLength, flagByte, Nat.testBit]
  | _ => cases h <;> simp [decodeCommand, paramLength]

/-- Settles O16: every field of R6 is read at the place it was written. -/
theorem bodyRoundTrip : Obligations.BodyRoundTrip := fun b h => decodeBody_bodyBytes b h

/-- Settles O17: the frame made passes the CRC test and R9's tests. -/
theorem frameRoundTrip : Obligations.FrameRoundTrip := fun cls ordinary src dst b h =>
  takenBody_makeFrame cls ordinary src dst b h

/-- Settles O18: the record arrives whole, and decoding undoes encoding. -/
theorem commandRoundTrip : Obligations.CommandRoundTrip := fun c code seq ps hw h => by
  obtain ⟨hl, hd⟩ := decodeCommand_encodeCommand hw h
  rw [writtenCommand_commandTransfer code seq ps hl, hd]

end Sys2Proof

/-! ## Command writes (R10, R168) -/
namespace Sys2Proof.Machine
open Safety

/-! ### Reads as intakes (R176, R177, R180) -/

section ReadArms
variable (seq : Byte) (s : State)

theorem exec_status : exec (.status seq) s = intake 0x04 seq (fun t => accept 0 (statusBytes t) t) s := rfl

theorem exec_readCard (serial : BitVec 16) : exec (.readCard seq serial) s = intake 0x40 seq (fun t =>
    if serial.toNat < 8192 then accept 0 (cardBytes t serial.toNat) t else refuse .index t) s := rfl

theorem exec_readCaplog (position : BitVec 16) : exec (.readCaplog seq position) s = intake 0x41 seq (fun t =>
    if position.toNat < 1024 then accept 0 (capBytes t.ctu.capLog position.toNat) t else refuse .index t) s := rfl

theorem exec_readDeferred (position : Byte) : exec (.readDeferred seq position) s = intake 0x42 seq (fun t =>
    if position.toNat < 64 then accept 0 (deferredBytes t.dq.area.entries position.toNat) t else refuse .index t) s := rfl

theorem exec_readPayout (index : Byte) : exec (.readPayout seq index) s = intake 0x43 seq (fun t =>
    if 62 < index.toNat then refuse .index t
    else if index = 0 then accept 0 (payoutSummary t.tu.payout) t
    else accept 0 (payoutBytes t (index.setWidth 6)) t) s := rfl

theorem exec_readEvents : exec (.readEvents seq) s = intake 0x51 seq (fun t => accept 0 (eventBytes t) t) s := rfl

end ReadArms

/-- A till command that is neither RESET nor malformed is an intake under its own code and sequence number (R10, R11). -/
theorem exec_of_encodeCommand {c : Instr} {code seq : Byte} {ps : List Byte} (h : encodeCommand c = some (code, seq, ps))
    (hr : ∀ q, c ≠ .reset q) (hm : ∀ a b l, c ≠ .malformed a b l) :
    ∃ work : State → State, ∀ s, exec c s = intake code seq work s := by
  cases c with
  | reset q => exact absurd rfl (hr q)
  | malformed a b l => exact absurd rfl (hm a b l)
  | status q => cases h; exact ⟨_, exec_status _⟩
  | readCard q k => cases h; exact ⟨_, fun s => exec_readCard _ s k⟩
  | readCaplog q p => cases h; exact ⟨_, fun s => exec_readCaplog _ s p⟩
  | readDeferred q p => cases h; exact ⟨_, fun s => exec_readDeferred _ s p⟩
  | readPayout q i => cases h; exact ⟨_, fun s => exec_readPayout _ s i⟩
  | readEvents q => cases h; exact ⟨_, exec_readEvents _⟩
  | sell q a e => cases e <;> cases h <;> exact ⟨_, fun _ => rfl⟩
  | inquire q a k t => cases t <;> cases h <;> exact ⟨_, fun _ => rfl⟩
  | _ => cases h <;> exact ⟨_, fun _ => rfl⟩

/-- A command write while BUSY or in a start-up leaves the intake result alone changed (R10, R168). -/
theorem intake_of_busy (code seq : Byte) (work : State → State) (s : State) (hr : isRunning s = true)
    (hb : s.tp.busy = true ∨ s.tp.startup ≠ .none) :
    intake code seq work s = .next { s with tp := { s.tp with intake := .busy } } := by
  have h : refusesBusy s = true := by simpa [refusesBusy] using hb
  simp [intake, hr, h]

/-- Settles O24: every such command is an intake, which BUSY ends at once. -/
theorem intakeRefusals : Obligations.IntakeRefusals := by
  intro c s code seq ps hrun
  refine ⟨fun h hr hm hb => ?_, ?_⟩
  · obtain ⟨work, hw⟩ := exec_of_encodeCommand h hr hm
    rw [hw, intake_of_busy code seq work s hrun hb]
  · show execMalformed code seq ps s = _
    simp [execMalformed, hrun]

/-! ### Commands decided at the take -/

/-- A command accepted at its take is answered, and nothing but the Till Port is changed (R12, R168). -/
theorem intake_accepted {code seq : Byte} {work : State → State} {s : State} {tag : Tag} {data : List Byte}
    (h : idlePort s) (hw : work (takeCommand code seq s) = accept tag data (takeCommand code seq s)) :
    nextSatisfies (intake code seq work s) fun t => onlyPort s t ∧ t.tp = answered s (acceptedAs code seq tag data) :=
  ⟨_, intake_of_idle code seq s work h, by rw [hw]; exact ⟨rfl, rfl⟩⟩

/-- A command refused at its take is answered with its reason, and nothing but the Till Port is changed (R12, R168). -/
theorem intake_refused {code seq : Byte} {work : State → State} {s : State} {r : Reason}
    (h : idlePort s) (hw : work (takeCommand code seq s) = refuse r (takeCommand code seq s)) :
    nextSatisfies (intake code seq work s) fun t => onlyPort s t ∧ t.tp = answered s (refusedAs code seq r) :=
  ⟨_, intake_of_idle code seq s work h, by rw [hw]; exact ⟨rfl, rfl⟩⟩

/-- A command refused on the slot or hold it names shows that tag (R12). -/
theorem intake_refusedNamed {code seq : Byte} {work : State → State} {s : State} {r : Reason} {tag : Tag}
    (h : idlePort s) (hw : work (takeCommand code seq s) = refuseNamed r tag (takeCommand code seq s)) :
    nextSatisfies (intake code seq work s) fun t =>
      onlyPort s t ∧ t.tp = answered s { refusedAs code seq r with tag := tag } :=
  ⟨_, intake_of_idle code seq s work h, by rw [hw]; exact ⟨rfl, rfl⟩⟩

/-- A command handed to its owner stays PENDING, and nothing but the Till Port is changed (R168). -/
theorem intake_handed {code seq : Byte} {work : State → State} {s : State} {w : Hand}
    (h : idlePort s) (hw : work (takeCommand code seq s) = handTo w (takeCommand code seq s)) :
    nextSatisfies (intake code seq work s) fun t => onlyPort s t ∧ t.tp = handed s code seq w :=
  ⟨_, intake_of_idle code seq s work h, by rw [hw]; exact ⟨rfl, rfl⟩⟩

/-! ### The four reads (R177) -/

/-- A read of a position answers its data from memory, or is refused INDEX out of range (R12, R177). -/
theorem intake_read {code seq : Byte} {s : State} {p bound : Nat} (data : State → List Byte) (h : idlePort s)
    (hd : data (takeCommand code seq s) = data s) :
    nextSatisfies (intake code seq (fun t => if p < bound + 1 then accept 0 (data t) t else refuse .index t) s) fun t =>
      onlyPort s t ∧ t.tp = answered s (if p ≤ bound then acceptedAs code seq 0 (data s) else refusedAs code seq .index) := by
  by_cases hp : p ≤ bound
  · have hl : p < bound + 1 := Nat.lt_succ_of_le hp
    rw [if_pos hp, ← hd]
    exact intake_accepted h (by simp only [if_pos hl])
  · have hl : ¬ p < bound + 1 := fun hl => hp (Nat.le_of_lt_succ hl)
    rw [if_neg hp]
    exact intake_refused h (by simp only [if_neg hl])

/-- READ-PAYOUT answers the summary, a peer's entry, or INDEX above 62 (R12, R167). -/
theorem readPayout_taken (s : State) (seq index : Byte) (h : idlePort s) :
    nextSatisfies (exec (.readPayout seq index) s) fun t => onlyPort s t ∧ t.tp = answered s
      (if 62 < index.toNat then refusedAs 0x43 seq .index
        else if index = 0 then acceptedAs 0x43 seq 0 (payoutSummary s.tu.payout)
        else acceptedAs 0x43 seq 0 (payoutBytes s (index.setWidth 6))) := by
  rw [exec_readPayout]
  by_cases hi : 62 < index.toNat
  · simp only [if_pos hi]
    exact intake_refused h rfl
  · by_cases h0 : index = 0
    · simp only [if_neg hi, if_pos h0]
      exact intake_accepted h rfl
    · simp only [if_neg hi, if_neg h0]
      exact intake_accepted h rfl

/-- The four reads at the take (R177). -/
theorem reads_taken (s : State) (seq : Byte) (serial position : BitVec 16) (place index : Byte) (h : idlePort s) :
    (nextSatisfies (exec (.readCard seq serial) s) fun t => onlyPort s t ∧ t.tp = answered s
      (if serial.toNat ≤ 8191 then acceptedAs 0x40 seq 0 (cardBytes s serial.toNat) else refusedAs 0x40 seq .index)) ∧
    (nextSatisfies (exec (.readCaplog seq position) s) fun t => onlyPort s t ∧ t.tp = answered s
      (if position.toNat ≤ 1023 then acceptedAs 0x41 seq 0 (capBytes s.ctu.capLog position.toNat)
        else refusedAs 0x41 seq .index)) ∧
    (nextSatisfies (exec (.readDeferred seq place) s) fun t => onlyPort s t ∧ t.tp = answered s
      (if place.toNat ≤ 63 then acceptedAs 0x42 seq 0 (deferredBytes s.dq.area.entries place.toNat)
        else refusedAs 0x42 seq .index)) ∧
    (nextSatisfies (exec (.readPayout seq index) s) fun t => onlyPort s t ∧ t.tp = answered s
      (if 62 < index.toNat then refusedAs 0x43 seq .index
        else if index = 0 then acceptedAs 0x43 seq 0 (payoutSummary s.tu.payout)
        else acceptedAs 0x43 seq 0 (payoutBytes s (index.setWidth 6)))) :=
  ⟨intake_read (fun t => cardBytes t serial.toNat) h rfl,
    intake_read (fun t => capBytes t.ctu.capLog position.toNat) h rfl,
    intake_read (fun t => deferredBytes t.dq.area.entries place.toNat) h rfl, readPayout_taken s seq index h⟩

/-! ### Port status, attention line, transfers (R10, R183) -/

/-- Bit `i` of a flag put at bit `k` of a byte. -/
theorem getLsbD_flagAt (b : Bool) (k i : Nat) (hk : k < 8) :
    (if b then BitVec.twoPow 8 k else (0 : Byte)).getLsbD i = (decide (i = k) && b) := by
  cases b <;> simp [hk, eq_comm]

theorem portStatus_getLsbD (s : State) (i : Nat) :
    (portStatus s).getLsbD i = (decide (i = 0) && s.tp.busy || decide (i = 1) && attention s ||
      decide (i = 2) && decide (s.tp.notices ≠ []) || decide (i = 3) && decide (s.tp.station = .halted)) := by
  have hn : (if s.tp.notices.isEmpty then (0 : Byte) else 0x04) =
      if decide (s.tp.notices ≠ []) then BitVec.twoPow 8 2 else 0 := by
    cases s.tp.notices <;> rfl
  have e : portStatus s = (if s.tp.busy then BitVec.twoPow 8 0 else 0) ||| (if attention s then BitVec.twoPow 8 1 else 0) |||
      (if decide (s.tp.notices ≠ []) then BitVec.twoPow 8 2 else 0) |||
      (if decide (s.tp.station = .halted) then BitVec.twoPow 8 3 else 0) := by
    rw [← hn]; rfl
  simp only [e, BitVec.getLsbD_or, getLsbD_flagAt _ _ i (by decide : 0 < 8), getLsbD_flagAt _ _ i (by decide : 1 < 8),
    getLsbD_flagAt _ _ i (by decide : 2 < 8), getLsbD_flagAt _ _ i (by decide : 3 < 8)]

/-- Two sets of flags meet where some bit is in both. -/
theorem and_ne_zero_iff {w : Nat} (x y : BitVec w) :
    x &&& y ≠ 0 ↔ ∃ i, x.getLsbD i = true ∧ y.getLsbD i = true := by
  constructor
  · intro h
    by_contra hc
    push Not at hc
    refine h (BitVec.eq_of_getLsbD_eq fun i _ => ?_)
    simpa using hc i
  · rintro ⟨i, hx, hy⟩ h
    have : (x &&& y).getLsbD i = true := by simp [hx, hy]
    rw [h] at this
    simp at this

theorem attention_iff (s : State) : attention s = true ↔
    s.tp.allMask = true ∧ ∃ i, s.tp.events.getLsbD i = true ∧ s.tp.mask.getLsbD i = true := by
  rw [attention, Bool.and_eq_true, bne_iff_ne, and_ne_zero_iff]

/-- The trailing byte of a command write is the intake byte (R10). -/
theorem writeReply_trailing (t : State) (code seq n trailing : Byte) (ps : List Byte) (h : ps.length = n.toNat) :
    (writeReply t ([code, seq, n] ++ ps ++ [trailing]))[3 + n.toNat]? = some (intakeByte t.tp.intake) := by
  have hl : 3 + n.toNat < ([code, seq, n] ++ ps ++ [trailing]).length := by simp; omega
  rw [writeReply, List.getElem?_map, List.getElem?_range hl]
  simp

/-- A response read shows the record, and 0x00 behind it (R10). -/
theorem responseRead_eq (s : State) (n : Nat) :
    responseRead s n = (responseBytes s.tp.response ++ List.replicate n 0).take n := by
  rw [responseRead, List.take_append, List.take_replicate, Nat.min_eq_left (Nat.sub_le _ _)]

/-- Settles O33: the reads at the take, the bits of the port status byte, the bytes of the three transfers. -/
theorem readsTaken : Obligations.ReadsTaken := by
  refine ⟨reads_taken, fun s => ⟨portStatus_getLsbD s, attention_iff s⟩,
    fun s t code seq n trailing x ps sent hl h1 h2 => ⟨rfl, ?_, ?_, ?_⟩⟩
  · have e : 4 + n.toNat = (3 + n.toNat) + 1 := by omega
    rw [shiftedOut, if_pos rfl, e, List.getElem?_cons_succ, writeReply_trailing t code seq n trailing ps hl]
    cases t.tp.intake <;> rfl
  · rw [shiftedOut, if_neg (by decide), if_pos rfl, responseRead_eq]
  · rw [shiftedOut, if_neg h1, if_neg h2]

/-! ### TAKE-NOTICE (R84, R179) -/

/-- With no waiting notice, free places take none (R84). -/
theorem enterDues_of_nil (k : Nat) (s : State) (h : s.su.due = []) : enterDues k s = s := by
  cases k with
  | zero => rfl
  | succ k => simp only [enterDues, h]

/-- One free place takes the oldest waiting notice (R84, R178). -/
theorem enterDues_one (s : State) (d : DueNotice) (ds : List DueNotice) (h : s.su.due = d :: ds) :
    enterDues 1 s = enterDue d s := by simp only [enterDues, h]

/-- A waiting notice enters the completion queue; of the rest of the state its slot alone can change (R84). -/
theorem enterDue_eq (d : DueNotice) (s : State) : enterDue d s = { s with
    tp := { s.tp with notices := s.tp.notices ++ [d.notice], events := s.tp.events ||| eventBit .notice }
    su := { s.su with slots := (enterDue d s).su.slots, due := s.su.due.tail } } := by
  unfold enterDue
  cases d.slot with
  | none => rfl
  | some n => simp only; split_ifs <;> rfl

@[simp] theorem enterDue_tp (d : DueNotice) (s : State) : (enterDue d s).tp =
    { s.tp with notices := s.tp.notices ++ [d.notice], events := s.tp.events ||| eventBit .notice } := by rw [enterDue_eq]
@[simp] theorem enterDue_due (d : DueNotice) (s : State) : (enterDue d s).su.due = s.su.due.tail := by rw [enterDue_eq]
@[simp] theorem enterDue_tagSeq (d : DueNotice) (s : State) : (enterDue d s).su.tagSeq = s.su.tagSeq := by rw [enterDue_eq]
@[simp] theorem enterDue_ctu (d : DueNotice) (s : State) : (enterDue d s).ctu = s.ctu := by rw [enterDue_eq]
@[simp] theorem enterDue_dq (d : DueNotice) (s : State) : (enterDue d s).dq = s.dq := by rw [enterDue_eq]
@[simp] theorem enterDue_lc (d : DueNotice) (s : State) : (enterDue d s).lc = s.lc := by rw [enterDue_eq]
@[simp] theorem enterDue_ps (d : DueNotice) (s : State) : (enterDue d s).ps = s.ps := by rw [enterDue_eq]
@[simp] theorem enterDue_tu (d : DueNotice) (s : State) : (enterDue d s).tu = s.tu := by rw [enterDue_eq]
@[simp] theorem enterDue_choices (d : DueNotice) (s : State) : (enterDue d s).choices = s.choices := by rw [enterDue_eq]
@[simp] theorem enterDue_pending (d : DueNotice) (s : State) : (enterDue d s).pending = s.pending := by rw [enterDue_eq]

/-- A terminal notice frees its slot (R84). -/
theorem enterDue_slots_terminal (d : DueNotice) (s : State) (k : Nat) (hk : d.slot = some k) (ht : d.terminal = true) :
    (enterDue d s).su.slots = Table.drop s.su.slots k := by
  simp [enterDue, hk, ht]

/-- Another notice leaves the slots as they are (R84). -/
theorem enterDue_slots_other (d : DueNotice) (s : State) (h : d.slot = none ∨ d.terminal = false) :
    (enterDue d s).su.slots = s.su.slots := by
  unfold enterDue
  cases hs : d.slot with
  | none => rfl
  | some n =>
    have ht : d.terminal = false := h.resolve_left (by rw [hs]; exact Option.some_ne_none n)
    simp [ht]

/-- A slot removed: that slot alone is changed. -/
theorem oneSlot_of_drop {s t : State} {n : Nat} (hr : Table.rises s.su.slots = true)
    (h : t.su.slots = Table.drop s.su.slots n) : oneSlot s t n none := by
  unfold oneSlot slotAt
  rw [h]
  exact ⟨Table.find_drop_self _ _ hr, fun m hm => Table.find_drop_of_ne _ _ _ hr hm⟩

/-- The state in which TAKE-NOTICE has formed its response and freed the notice's place (R179). -/
def noticeHanded (s : State) (seq : Byte) (n : Notice) (rest : List Notice) : State :=
  { s with tp := { answered s (acceptedAs 0x50 seq 0 (noticeBytes n)) with notices := rest } }

theorem takeNotice_of_nil (s : State) (seq : Byte) (h : s.tp.notices = []) :
    takeNotice (takeCommand 0x50 seq s) = accept 0 (noticeBytes emptyNotice) (takeCommand 0x50 seq s) := by
  simp only [takeNotice, takeCommand_tp, h]

/-- The oldest notice handed out, the free place left takes a waiting notice (R179). -/
theorem takeNotice_of_cons (s : State) (seq : Byte) (n : Notice) (rest : List Notice) (h : s.tp.notices = n :: rest) :
    takeNotice (takeCommand 0x50 seq s) =
      enterDues (min 1 (16 - rest.length - s.tp.taken)) (noticeHanded s seq n rest) := by
  simp only [takeNotice, takeCommand_tp, h]
  rfl

/-- The notice record of EMPTY is 21 zeros (R13). -/
theorem noticeBytes_emptyNotice : noticeBytes emptyNotice = List.replicate 21 0 := by decide

/-- Settles O34, by whether a notice stands and whether one waits. -/
theorem takeNoticeTaken : Obligations.TakeNoticeTaken := by
  intro s seq hi
  refine ⟨_, intake_of_idle 0x50 seq s takeNotice hi, fun hn => ?_, fun n rest hn hd => ?_,
    fun n rest d ds hn hd hp => ?_⟩
  · rw [takeNotice_of_nil s seq hn, noticeBytes_emptyNotice]
    exact ⟨rfl, rfl⟩
  · rw [takeNotice_of_cons s seq n rest hn, enterDues_of_nil _ (noticeHanded s seq n rest) hd]
    exact ⟨rfl, rfl⟩
  · have hfree : min 1 (16 - rest.length - s.tp.taken) = 1 := by
      rw [hn, List.length_cons] at hp
      omega
    rw [takeNotice_of_cons s seq n rest hn, hfree, enterDues_one (noticeHanded s seq n rest) d ds hd]
    have hsu : (enterDue d (noticeHanded s seq n rest)).su =
        { s.su with slots := (enterDue d (noticeHanded s seq n rest)).su.slots, due := ds } := by
      rw [enterDue_eq]
      simp [noticeHanded, hd]
    refine ⟨enterDue_tp .., hsu, fun k hk ht hr => oneSlot_of_drop hr (enterDue_slots_terminal d _ k hk ht),
      fun h => enterDue_slots_other d _ h, ?_, State.ext rfl (enterDue_ctu ..) rfl (enterDue_dq ..) (enterDue_lc ..) rfl
        (enterDue_tu ..) (enterDue_choices ..) (enterDue_pending ..)⟩
    simp only [noRecord, settleWaiting_ps, enterDue_ps]
    rfl

end Sys2Proof.Machine

/-! ## CONFIRM and CANCEL (R59, R74, R75, R170) -/
namespace Sys2Proof.Machine
open Safety

@[simp] theorem amount24_toNat (a : Amount) : amount24 a.toNat = a := by
  simp [amount24, a.isLt]

/-- In JOINED a card or settlement command is taken and worked on (R168, R169). -/
theorem tested_trade (code seq : Byte) (work : State → State) (s : State) (hj : s.tp.station = .joined) :
    tested tradeTest work (takeCommand code seq s) = work (takeCommand code seq s) :=
  tested_of_none _ tradeTest work (tradeTest_of_joined code seq s hj)

theorem heldSlot_tag {s : State} {tag : Tag} {n : Nat} {sl : Slot} (h : heldSlot s tag = some (n, sl)) : sl.tag = tag := by
  have := List.find?_some h
  simp only [Bool.and_eq_true, beq_iff_eq] at this
  exact this.1

theorem routeConfirm_of_hold {s : State} {tag : Tag} {i : Nat} {h : LiveHold} (amount : Nat)
    (hl : localHold s tag = some (i, h)) : routeConfirm tag amount s =
      if amount < 1 ∨ h.grant < amount then refuseNamed .amount tag s
      else handTo (.localReq (.confirm tag amount)) s := by
  simp only [routeConfirm, hl]

theorem routeConfirm_of_none {s : State} {tag : Tag} (amount : Nat) (hl : localHold s tag = none) :
    routeConfirm tag amount s = confirmSlot tag amount s := by simp only [routeConfirm, hl]

theorem routeCancel_of_hold {s : State} {tag : Tag} {x : Nat × LiveHold} (hl : localHold s tag = some x) :
    routeCancel tag s = handTo (.localReq (.cancel tag)) s := by simp only [routeCancel, hl]

theorem routeCancel_of_none {s : State} {tag : Tag} (hl : localHold s tag = none) :
    routeCancel tag s = cancelSlot tag s := by simp only [routeCancel, hl]

theorem confirmSlot_of_none {s : State} {tag : Tag} (amount : Nat) (hs : heldSlot s tag = none) :
    confirmSlot tag amount s = refuse .noSlot s := by simp only [confirmSlot, hs]

theorem cancelSlot_of_none {s : State} {tag : Tag} (hs : heldSlot s tag = none) : cancelSlot tag s = refuse .noSlot s := by
  simp only [cancelSlot, hs]

/-- A slot whose CLAIM is on its way (R74). -/
def claimingSlot (s : State) (sl : Slot) (amount : Nat) : Slot :=
  { sl with amount := amount, state := .claiming, reply := some s.tp.config.window, stalls := 0, holdTimer := none }

/-- What a CONFIRM on a slot in HELD comes to (R74). -/
theorem confirmSlot_of_held {s : State} {tag : Tag} {n : Nat} {sl : Slot} {id : HoldId} {grant : Nat} (amount : Amount)
    (hs : heldSlot s tag = some (n, sl)) (hh : sl.hold = some (id, grant)) : confirmSlot tag amount.toNat s =
      if amount.toNat < 1 ∨ grant < amount.toNat then refuseNamed .amount tag s
      else if txFree s .c2 < 1 then refuseNamed .lineBusy tag s
      else accept tag [] (enqueue .c2 (cardHome sl.card) (.claim tag sl.card id amount false)
        (putSlot n (claimingSlot s sl amount.toNat) s)) := by
  simp only [confirmSlot, hs, hh, heldSlot_tag hs, Option.map_some, Option.getD_some, amount24_toNat, claimingSlot]

theorem cancelSlot_of_held {s : State} {tag : Tag} {n : Nat} {sl : Slot} (hs : heldSlot s tag = some (n, sl)) :
    cancelSlot tag s = accept tag [] (releaseHeld n sl .cancelled s) := by simp only [cancelSlot, hs]

/-- The DROP of a slot's hold enters class 2 when it has a free place (R75). -/
theorem sendDrop_eq {sl : Slot} {id : HoldId} {grant : Nat} (hh : sl.hold = some (id, grant)) (s : State) :
    sendDrop sl s = { s with lc := { s.lc with tx2 := { s.lc.tx2 with frames := s.lc.tx2.frames ++
      (if 1 ≤ txFree s .c2 then [⟨cardHome sl.card, .drop sl.tag id, 0, 0⟩] else []) } } } := by
  simp only [sendDrop, hh]
  split_ifs
  · rfl
  · rw [List.append_nil]

section ConfirmCancel
variable {s : State} (seq : Byte) {tag : Tag} (hi : idlePort s) (hj : s.tp.station = .joined)
include hi hj

/-- A CONFIRM on a slot in HELD queues the CLAIM and starts the reply timer (R74). -/
theorem confirm_slot_accepted {amount : Amount} {n : Nat} {sl : Slot} {id : HoldId} {grant : Nat}
    (hl : localHold s tag = none) (hs : heldSlot s tag = some (n, sl)) (hh : sl.hold = some (id, grant))
    (h1 : 1 ≤ amount.toNat) (h2 : amount.toNat ≤ grant) (hf : 1 ≤ txFree s .c2) :
    exec (.confirm seq tag amount) s = .next (settleWaiting (accept tag []
      (enqueue .c2 (cardHome sl.card) (.claim tag sl.card id amount false)
        (putSlot n (claimingSlot s sl amount.toNat) (takeCommand 0x22 seq s))))) := by
  have ha : ¬ (amount.toNat < 1 ∨ grant < amount.toNat) := by omega
  have hb : ¬ txFree (takeCommand 0x22 seq s) .c2 < 1 := Nat.not_lt.2 hf
  refine (intake_of_idle 0x22 seq s _ hi).trans ?_
  rw [tested_trade _ _ _ _ hj, routeConfirm_of_none (s := takeCommand 0x22 seq s) _ hl,
    confirmSlot_of_held (s := takeCommand 0x22 seq s) amount hs hh, if_neg ha, if_neg hb]
  rfl

/-- A CANCEL on a slot in HELD ends it (R75). -/
theorem cancel_slot_accepted {n : Nat} {sl : Slot} (hl : localHold s tag = none) (hs : heldSlot s tag = some (n, sl)) :
    exec (.cancel seq tag) s =
      .next (settleWaiting (accept tag [] (releaseHeld n sl .cancelled (takeCommand 0x23 seq s)))) := by
  refine (intake_of_idle 0x23 seq s _ hi).trans ?_
  rw [tested_trade _ _ _ _ hj, routeCancel_of_none (s := takeCommand 0x23 seq s) hl,
    cancelSlot_of_held (s := takeCommand 0x23 seq s) hs]

/-- A tag with neither a live local hold nor a slot in HELD is refused NO-SLOT (R74, R75). -/
theorem confirmCancel_noSlot (amount : Amount) (hl : localHold s tag = none) (hs : heldSlot s tag = none) :
    ∀ x ∈ [(Instr.confirm seq tag amount, (0x22 : Byte)), (.cancel seq tag, 0x23)],
      nextSatisfies (exec x.1 s) fun t => onlyPort s t ∧ t.tp = answered s (refusedAs x.2 seq .noSlot) := by
  intro x hx
  simp only [List.mem_cons, List.not_mem_nil, or_false] at hx
  obtain rfl | rfl := hx
  · refine intake_refused hi (work := tested tradeTest (routeConfirm tag amount.toNat)) ?_
    rw [tested_trade _ _ _ _ hj, routeConfirm_of_none (s := takeCommand 0x22 seq s) _ hl,
      confirmSlot_of_none (s := takeCommand 0x22 seq s) _ hs]
  · refine intake_refused hi (work := tested tradeTest (routeCancel tag)) ?_
    rw [tested_trade _ _ _ _ hj, routeCancel_of_none (s := takeCommand 0x23 seq s) hl,
      cancelSlot_of_none (s := takeCommand 0x23 seq s) hs]

/-- A CONFIRM refused on the slot in HELD it names (R74). -/
theorem confirm_slot_refused {amount : Amount} {n : Nat} {sl : Slot} {id : HoldId} {grant : Nat}
    (hl : localHold s tag = none) (hs : heldSlot s tag = some (n, sl)) (hh : sl.hold = some (id, grant))
    (hr : amount.toNat < 1 ∨ grant < amount.toNat ∨ txFree s .c2 = 0) :
    nextSatisfies (exec (.confirm seq tag amount) s) fun t => onlyPort s t ∧ t.tp = answered s { refusedAs 0x22 seq
      (if amount.toNat < 1 ∨ grant < amount.toNat then .amount else .lineBusy) with tag := tag } := by
  refine intake_refusedNamed hi (work := tested tradeTest (routeConfirm tag amount.toNat)) ?_
  rw [tested_trade _ _ _ _ hj, routeConfirm_of_none (s := takeCommand 0x22 seq s) _ hl,
    confirmSlot_of_held (s := takeCommand 0x22 seq s) amount hs hh]
  by_cases ha : amount.toNat < 1 ∨ grant < amount.toNat
  · rw [if_pos ha, if_pos ha]
  · have hb : txFree (takeCommand 0x22 seq s) .c2 < 1 := by
      have : txFree s .c2 = 0 := by omega
      exact Nat.lt_one_iff.2 this
    rw [if_neg ha, if_neg ha, if_pos hb]

/-- A CONFIRM of a live local hold's tag goes to the Card Table Unit after its amount test (R59, R170). -/
theorem confirm_local {amount : Amount} {i : Nat} {h : LiveHold} (hl : localHold s tag = some (i, h)) :
    nextSatisfies (exec (.confirm seq tag amount) s) fun t => onlyPort s t ∧ t.tp =
      if 1 ≤ amount.toNat ∧ amount.toNat ≤ h.grant then handed s 0x22 seq (.localReq (.confirm tag amount.toNat))
      else answered s { refusedAs 0x22 seq .amount with tag := tag } := by
  have hw : tested tradeTest (routeConfirm tag amount.toNat) (takeCommand 0x22 seq s) =
      if amount.toNat < 1 ∨ h.grant < amount.toNat then refuseNamed .amount tag (takeCommand 0x22 seq s)
      else handTo (.localReq (.confirm tag amount.toNat)) (takeCommand 0x22 seq s) := by
    rw [tested_trade _ _ _ _ hj, routeConfirm_of_hold (s := takeCommand 0x22 seq s) _ hl]
  by_cases ha : 1 ≤ amount.toNat ∧ amount.toNat ≤ h.grant
  · rw [if_neg (by omega)] at hw
    simp only [if_pos ha]
    exact intake_handed hi hw
  · rw [if_pos (by omega)] at hw
    simp only [if_neg ha]
    exact intake_refusedNamed hi hw

/-- A CANCEL of a live local hold's tag goes to the Card Table Unit (R59, R170). -/
theorem cancel_local {x : Nat × LiveHold} (hl : localHold s tag = some x) :
    nextSatisfies (exec (.cancel seq tag) s) fun t => onlyPort s t ∧ t.tp = handed s 0x23 seq (.localReq (.cancel tag)) := by
  refine intake_handed hi (work := tested tradeTest (routeCancel tag)) ?_
  rw [tested_trade _ _ _ _ hj, routeCancel_of_hold (s := takeCommand 0x23 seq s) hl]

end ConfirmCancel

/-- Settles O39, by whether the tag is a live local hold's, a HELD slot's, or neither's. -/
theorem slotConfirmAndCancel : Obligations.SlotConfirmAndCancel := by
  intro s seq tag amount n i sl h id grant hi hj
  refine ⟨fun hl hs hh h1 h2 hf => ?_, fun hl hs hh => ?_, confirmCancel_noSlot seq hi hj amount,
    confirm_slot_refused seq hi hj, fun hl => ⟨confirm_local seq hi hj hl, cancel_local seq hi hj hl⟩⟩
  · exact ⟨_, confirm_slot_accepted seq hi hj hl hs hh h1 h2 hf, rfl, oneSlot_of_put rfl, rfl⟩
  · refine ⟨_, cancel_slot_accepted seq hi hj hl hs, ?_⟩
    simp only [releaseHeld, sendDrop_eq hh, slotNotice, heldSlot_tag hs, hh, Option.map_some, Option.getD_some]
    exact ⟨rfl, oneSlot_of_put rfl, rfl⟩

/-! ## Requests received (R106, R117 to R121) -/

/-- A request for this station stays in the receive queue (R121). -/
theorem deliver_of_request (src : Station) (b : Body) (s : State) (h : isRequest b = true) :
    deliver src b s = { s with lc := { s.lc with rx := s.lc.rx ++ [⟨src, b⟩] } } := by
  unfold deliver
  split
  · cases h
  · cases h
  · rw [if_pos h]

/-- A frame of another station for this one is delivered, or lost to a full receive queue (R119). -/
theorem takenFrame_of_own {s : State} {src dst : Station} (b : Body) (hs : src ≠ ownStation s) (hd : dst = ownStation s) :
    takenFrame src dst b s = if 16 ≤ s.lc.rx.length then setEvent .overrun s else deliver src b s := by
  have h : ¬ (dst ≠ ownStation s ∧ dst ≠ 63) := fun h => h.1 hd
  rw [takenFrame, if_neg hs, if_neg h]
  rfl

/-- A frame that passes every test is taken when the line is not STUCK (R105, R117). -/
theorem execReceiveQueueEntry_taken {s : State} {f : RawFrame} {b : Body} (hh : hearing s = true) (hl : s.lc.line ≠ .stuck)
    (hb : takenBody f = some b) :
    exec (.receiveQueueEntry f) s = .next (settleWaiting (takenFrame f.src f.dst b (frameEnded s))) := by
  show completeFrame f.src f.dst (takenBody f) s = _
  simp only [completeFrame, hh, hb, if_true, if_neg hl]

/-- A frame that fails the CRC test or a test of R9 only ends (R106, R117). -/
theorem execReceiveQueueEntry_failed {s : State} {f : RawFrame} (hh : hearing s = true) (hb : takenBody f = none) :
    exec (.receiveQueueEntry f) s = .next (frameEnded s) := by
  show completeFrame f.src f.dst (takenBody f) s = _
  simp only [completeFrame, hh, hb, if_true]

/-- An over-long body sends the receiver searching (R117). -/
theorem execBodyLengthDiscard_heard {s : State} (hh : hearing s = true) :
    exec .bodyLengthDiscard s = .next (putReceiver .searching s) := by
  show execBodyLengthDiscard s = _
  rw [execBodyLengthDiscard, if_pos hh]

/-- Settles O52, by whether the receive queue is full. -/
theorem requestReceived : Obligations.RequestReceived := by
  intro s f b hh hl
  refine ⟨fun hb hr hs hd => ?_, execReceiveQueueEntry_failed hh, execBodyLengthDiscard_heard hh⟩
  refine ⟨_, execReceiveQueueEntry_taken hh hl hb, ?_⟩
  have e := takenFrame_of_own (s := frameEnded s) b hs hd
  by_cases hf : 16 ≤ s.lc.rx.length
  · rw [e, if_pos (by exact hf)]
    exact ⟨fun hc => absurd hf (Nat.not_le.2 hc), fun _ => ⟨rfl, rfl⟩, rfl, rfl⟩
  · rw [e, if_neg (by exact hf), deliver_of_request _ _ _ hr]
    exact ⟨fun _ => ⟨rfl, rfl⟩, fun hc => absurd hc hf, rfl, rfl⟩

end Sys2Proof.Machine

/-! ## Till records (R12, R13) -/
namespace Sys2Proof.Machine

@[simp] theorem length_field (n v : Nat) : (field n v).length = n := length_bytesOf n v
@[simp] theorem length_amountField (v : Nat) : (amountField v).length = 3 := length_bytesOf 3 _
@[simp] theorem length_sumField (v : Sum48) : (sumField v).length = 6 := length_bytesOf 6 _
@[simp] theorem length_optionDay (d : Option Day) : (optionDay d).length = 3 := by simp [optionDay]

/-- An amount below 2^24 stands in its 3-byte field (R1). -/
theorem amountField_of_lt {v : Nat} (h : v < 2 ^ 24) : amountField v = bytesOf 3 v := by
  simp only [amountField, amount24, if_pos h, BitVec.toNat_ofNat, Nat.mod_eq_of_lt h]

/-! ### Lengths -/

theorem length_noticeBytes (n : Notice) : (noticeBytes n).length = 21 := by simp [noticeBytes]

theorem length_statusBytes (s : State) : (statusBytes s).length = 23 := by simp [statusBytes]

theorem length_tagBytes (e : RecentTag) : (tagBytes e).length = 4 := by simp [tagBytes]

/-- The recent-tag entries are 16 bytes, used or not (R12). -/
theorem length_tagListBytes (es : List RecentTag) (h : es.length ≤ 4) : (tagListBytes es).length = 16 := by
  have e : ((es.take 4).flatMap tagBytes).length = 4 * es.length := by
    simp [List.length_flatMap, length_tagBytes, List.take_of_length_le h, Nat.mul_comm]
  simp only [tagListBytes, Config.recentTags, List.length_append, List.length_replicate, e]
  omega

theorem length_cardBytes (s : State) (k : Nat) (h : (cardOf s k).tags.length ≤ 4) : (cardBytes s k).length = 36 := by
  simp [cardBytes, length_tagListBytes _ h]

theorem length_capBytes (l : CapLog) (p : Nat) : (capBytes l p).length = 14 := by
  unfold capBytes
  cases l.entries[p]? <;> simp

theorem length_deferredBytes (es : List DeferredEntry) (p : Nat) : (deferredBytes es p).length = 21 := by
  unfold deferredBytes
  cases es[p]? <;> simp

theorem length_payoutSummary (p : Option (PayoutRecord PairState)) : (payoutSummary p).length = 64 := by
  cases p <;> simp [payoutSummary]

theorem length_payoutBytes (s : State) (st : Station) : (payoutBytes s st).length = 75 := by
  unfold payoutBytes
  cases payoutEntry s st <;> simp

theorem length_responseBytes (r : Response) : (responseBytes r).length = 7 + r.data.length := by
  simp [responseBytes]
  omega

/-! ### Fields -/

/-- READ-CARD's first 20 bytes, field by field (R12, R20, R32). -/
theorem cardBytes_take (s : State) (serial : Nat) (hb : (cardOf s serial).balance < 2 ^ 24)
    (hh : heldOf s serial < 2 ^ 24) : (cardBytes s serial).take 20 =
      bytesOf 2 serial ++ [cardStateCode (reported s serial)] ++ bytesOf 1 (cardOf s serial).gen.toNat ++
        bytesOf 2 (if (cardOf s serial).state = .unissued ∨ s.tp.station = .unconfigured then (0 : Check)
          else checkCode (makeCard s.tp.config.mall s.tp.config.station serial (cardOf s serial).gen)
            s.tp.config.seed).toNat ++
        bytesOf 3 (cardOf s serial).balance ++ bytesOf 3 (heldOf s serial) ++
        bytesOf 2 (cardOf s serial).issueDay.toNat ++ [if (cardOf s serial).expiry.isSome then 1 else 0] ++
        bytesOf 2 ((cardOf s serial).expiry.getD 0).toNat ++ bytesOf 2 (cardOf s serial).lastDay.toNat ++
        bytesOf 1 (cardOf s serial).tags.length := by
  rw [cardBytes, List.take_left' (by simp), amountField_of_lt hb, amountField_of_lt hh]
  simp [optionDay, field, flagByte, reportedCheck, checkOf, cardNumber, ownStation]

/-- A notice, field by field (R13). -/
theorem noticeBytes_eq (n : Notice) (ha : n.amountA < 2 ^ 24) (hb : n.amountB < 2 ^ 24) : noticeBytes n =
    bytesOf 2 n.tag.toNat ++ [outcomeCode n.outcome, reasonCode n.reason, cardStateCode n.cardState, noticeFlags n] ++
      bytesOf 5 n.card.toNat ++ bytesOf 2 n.check.toNat ++ bytesOf 3 n.amountA ++ bytesOf 3 n.amountB ++
      bytesOf 2 n.day.toNat := by
  rw [noticeBytes, amountField_of_lt ha, amountField_of_lt hb]

theorem capBytes_entry {l : CapLog} {p : Nat} {e : CapEntry} (h : l.entries[p]? = some e) (ha : e.amount < 2 ^ 24)
    (hr : e.returned < 2 ^ 24) : capBytes l p = [1] ++ bytesOf 1 e.station.toNat ++ bytesOf 2 e.tag.toNat ++
      bytesOf 2 e.serial ++ bytesOf 3 e.amount ++ bytesOf 3 e.returned ++ bytesOf 2 e.day.toNat := by
  simp only [capBytes, h, field, amountField_of_lt ha, amountField_of_lt hr]

theorem capBytes_beyond {l : CapLog} {p : Nat} (h : l.entries.length ≤ p) : capBytes l p = List.replicate 14 0 := by
  simp only [capBytes, List.getElem?_eq_none h]

theorem deferredBytes_entry {es : List DeferredEntry} {p : Nat} {e : DeferredEntry} (h : es[p]? = some e)
    (ha : e.amount < 2 ^ 24) : deferredBytes es p =
      [(1 : Byte), entryKindCode e.kind, originCode e.origin, flagByte e.sent] ++
      bytesOf 1 e.attempts ++ bytesOf 5 e.card.toNat ++ bytesOf 2 e.check.toNat ++ bytesOf 3 e.amount ++
      bytesOf 2 e.tag.toNat ++ bytesOf 2 (e.holdId.getD 0).toNat ++ bytesOf 2 e.day.toNat := by
  simp only [deferredBytes, h, field, amountField_of_lt ha]

theorem deferredBytes_beyond {es : List DeferredEntry} {p : Nat} (h : es.length ≤ p) :
    deferredBytes es p = List.replicate 21 0 := by
  simp only [deferredBytes, List.getElem?_eq_none h]

theorem payoutSummary_some (r : PayoutRecord PairState) : payoutSummary (some r) =
    [if r.revised then (3 : Byte) else 1] ++ bytesOf 2 r.day.toNat ++ bytesOf 1 r.entries.length ++
      bytesOf 6 r.payout.toNat ++ bytesOf 6 r.fee.toNat ++ blockBytes r.selfLine := by
  have e : flagByte true + 2 * flagByte r.revised = if r.revised then (3 : Byte) else 1 := by cases r.revised <;> rfl
  simp only [payoutSummary, e, field, sumField]

/-- READ-PAYOUT shows the entry of a member peer that the record lists (R167). -/
theorem payoutEntry_of_find {s : State} {st : Station} {r : PayoutRecord PairState} {e : PeerEntry PairState}
    (hp : s.tu.payout = some r) (hf : (r.entries.find? fun x => x.station == st) = some e) (hm : isMember s st = true)
    (ho : st ≠ ownStation s) : payoutEntry s st = some e := by
  simp only [payoutEntry, if_pos (And.intro hm ho), hp, Option.bind_some, hf]

theorem payoutEntry_of_none {s : State} {st : Station}
    (h : isMember s st = false ∨ st = ownStation s ∨ s.tu.payout = none) : payoutEntry s st = none := by
  unfold payoutEntry
  split_ifs with hc
  · obtain ⟨hm, ho⟩ := hc
    have hp : s.tu.payout = none := by
      rcases h with h | h | h
      · rw [hm] at h; cases h
      · exact absurd h ho
      · exact h
    rw [hp]; rfl
  · rfl

theorem payoutBytes_of_find {s : State} {st : Station} {r : PayoutRecord PairState} {e : PeerEntry PairState}
    (hp : s.tu.payout = some r) (hf : (r.entries.find? fun x => x.station == st) = some e) (hm : isMember s st = true)
    (ho : st ≠ ownStation s) : payoutBytes s st = [(1 : Byte)] ++ bytesOf 1 st.toNat ++
        bytesOf 1 (pairStateCode e.state) ++ blockBytes e.block ++ bytesOf 6 e.netIn.toNat ++ bytesOf 6 e.feeIn.toNat ++
        bytesOf 6 e.netOut.toNat ++ bytesOf 6 e.line.toNat := by
  have hs : e.station = st := by simpa using List.find?_some hf
  simp only [payoutBytes, payoutEntry_of_find hp hf hm ho, hs, sumField, field]

theorem payoutBytes_of_none {s : State} {st : Station}
    (h : isMember s st = false ∨ st = ownStation s ∨ s.tu.payout = none) : payoutBytes s st = List.replicate 75 0 := by
  simp only [payoutBytes, payoutEntry_of_none h]

/-- Settles O20, from the length and the fields of each record. -/
theorem recordFormats : Obligations.RecordFormats := by
  refine ⟨length_noticeBytes, length_statusBytes, length_cardBytes, length_capBytes, length_deferredBytes,
    length_payoutSummary, length_payoutBytes, fun _ => rfl, length_responseBytes,
    fun s k _ hb hh => cardBytes_take s k hb hh, rfl, fun n ha hb => ?_, fun l p e h ha hr => capBytes_entry h ha hr,
    fun l p h => capBytes_beyond h, fun es p e h ha => ?_, fun es p h => deferredBytes_beyond h, payoutSummary_some, rfl,
    fun s st r e hp hf hm ho => ?_, fun s st h => payoutBytes_of_none h⟩
  · rw [noticeBytes_eq n ha hb, noticeFlags]
    cases n.result <;> rfl
  · rw [deferredBytes_entry h ha]
    cases e.kind <;> cases e.origin <;> rfl
  · rw [payoutBytes_of_find hp hf hm ho]
    cases e.state <;> rfl

end Sys2Proof.Machine

/-! ## Every command leaves the queue of waiting commands (R12, R168) -/
namespace Sys2Proof.Machine
open Safety

section Queue

/-- A fold of steps that leave the queue leaves it. -/
theorem foldl_pending {α : Type} (f : State → α → State) (h : ∀ s a, (f s a).pending = s.pending) (l : List α) (s : State) :
    (l.foldl f s).pending = s.pending := by
  induction l generalizing s with
  | nil => rfl
  | cons a l ih => rw [List.foldl_cons, ih, h]

variable (s : State)

/-! ### Answers and filings -/

@[simp] theorem answerNow_pending (dst : Station) (b : Body) : (answerNow dst b s).pending = s.pending := rfl

@[simp] theorem answerAfterRecords_pending (dst : Station) (b : Body) :
    (answerAfterRecords dst b s).pending = s.pending := by
  unfold answerAfterRecords
  split <;> rfl

@[simp] theorem restartComputation_pending : (restartComputation s).pending = s.pending := by
  unfold restartComputation
  split <;> rfl

@[simp] theorem fileActor_pending (home : Station) (p : FilePos) (amount : Nat) (day : Day) :
    (fileActor home p amount day s).1.pending = s.pending := by
  rw [fileActor_only]

/-! ### Takes of the Card Table Unit -/

@[simp] theorem applyCapture_pending (src : Station) (tag : Tag) (kind : TagKind) (serial amount : Nat) :
    (applyCapture src tag kind serial amount s).pending = s.pending := rfl
@[simp] theorem applyLoad_pending (src : Station) (tag : Tag) (serial amount : Nat) :
    (applyLoad src tag serial amount s).pending = s.pending := rfl
@[simp] theorem applyReturn_pending (src : Station) (newTag origTag : Tag) (serial amount : Nat) :
    (applyReturn src newTag origTag serial amount s).pending = s.pending := rfl

@[simp] theorem announce_pending (src : Station) (tag : Tag) : (announce src tag s).pending = s.pending := by
  unfold announce
  split <;> rfl

@[simp] theorem decideHold_pending (src : Station) (tag : Tag) (card : CardNo) (check : Check) (amount : Nat) (split : Bool) :
    (decideHold src tag card check amount split s).pending = s.pending := by
  simp only [decideHold]
  (repeat' split) <;> simp

@[simp] theorem decideClaim_pending (src : Station) (tag : Tag) (card : CardNo) (id : HoldId) (amount : Nat) (retry : Bool) :
    (decideClaim src tag card id amount retry s).pending = s.pending := by
  simp only [decideClaim]
  (repeat' split) <;> simp

@[simp] theorem decideDrop_pending (src : Station) (tag : Tag) (id : HoldId) :
    (decideDrop src tag id s).pending = s.pending := by
  unfold decideDrop
  (repeat' split) <;> rfl

@[simp] theorem applyPost_pending (src : Station) (tag : Tag) (serial amount taken : Nat) (reason : Reason) :
    (applyPost src tag serial amount taken reason s).pending = s.pending := by
  unfold applyPost
  split <;> rfl

@[simp] theorem decidePost_pending (src : Station) (tag : Tag) (card : CardNo) (check : Check) (amount : Nat) :
    (decidePost src tag card check amount s).pending = s.pending := by
  simp only [decidePost]
  (repeat' split) <;> simp

@[simp] theorem decideLoad_pending (src : Station) (tag : Tag) (card : CardNo) (check : Check) (amount : Nat) :
    (decideLoad src tag card check amount s).pending = s.pending := by
  simp only [decideLoad]
  (repeat' split) <;> simp

@[simp] theorem decideReturn_pending (src : Station) (newTag : Tag) (card : CardNo) (origTag : Tag) (amount : Nat) :
    (decideReturn src newTag card origTag amount s).pending = s.pending := by
  simp only [decideReturn]
  (repeat' split) <;> simp

@[simp] theorem decideInquire_pending (src : Station) (tag : Tag) (card : CardNo) (check : Check) (asked : Option Tag) :
    (decideInquire src tag card check asked s).pending = s.pending := by
  unfold decideInquire
  (repeat' split) <;> simp

@[simp] theorem popLine_pending : (popLine s).pending = s.pending := rfl

@[simp] theorem takeHomeOp_pending (op : HomeOp) : (takeHomeOp op s).pending = s.pending := by
  unfold takeHomeOp
  (repeat' split) <;> rfl

@[simp] theorem popLocal_pending : (popLocal s).pending = s.pending := rfl
@[simp] theorem acceptLocal_pending (updates : List AreaUpdate) (n : Notice) (asked : Nat) :
    (acceptLocal updates n asked s).pending = s.pending := rfl

@[simp] theorem takeLocalLoad_pending (card : CardNo) (check : Check) (amount : Nat) :
    (takeLocalLoad card check amount s).pending = s.pending := by
  simp only [takeLocalLoad]
  (repeat' split) <;> simp

@[simp] theorem takeLocalRedeem_pending (card : CardNo) (check : Check) (amount : Nat) (split : Bool) :
    (takeLocalRedeem card check amount split s).pending = s.pending := by
  simp only [takeLocalRedeem]
  (repeat' split) <;> simp

@[simp] theorem takeLocalReturn_pending (card : CardNo) (origTag : Tag) (amount : Nat) :
    (takeLocalReturn card origTag amount s).pending = s.pending := by
  simp only [takeLocalReturn]
  (repeat' split) <;> simp

@[simp] theorem takeLocalInquire_pending (card : CardNo) (check : Check) (asked : Option Tag) :
    (takeLocalInquire card check asked s).pending = s.pending := by
  unfold takeLocalInquire
  (repeat' split) <;> rfl

@[simp] theorem secondNotice_pending (h : LiveHold) (n : Notice) (asked : Nat) :
    (secondNotice h n asked s).pending = s.pending := by
  unfold secondNotice
  split <;> rfl

@[simp] theorem takeLocalConfirm_pending (tag : Tag) (amount : Nat) :
    (takeLocalConfirm tag amount s).pending = s.pending := by
  unfold takeLocalConfirm
  (repeat' split) <;> rfl

@[simp] theorem takeLocalCancel_pending (tag : Tag) : (takeLocalCancel tag s).pending = s.pending := by
  unfold takeLocalCancel
  split <;> simp

@[simp] theorem takeLocal_pending (r : LocalReq) : (takeLocal r s).pending = s.pending := by
  unfold takeLocal
  split <;> simp

/-! ### Slots -/

@[simp] theorem fileStep_pending (n : Nat) (sl : Slot) (pos : FilePos) (amount : Nat) (day : Option Day) (notice : Notice) :
    (fileStep n sl pos amount day notice s).pending = s.pending := rfl
@[simp] theorem joinEntry_pending (n : Nat) (sl : Slot) (e : DeferredEntry) (notice : Notice) :
    (joinEntry n sl e notice s).pending = s.pending := rfl

@[simp] theorem performSlotStep_pending (n : Nat) : (performSlotStep n s).pending = s.pending := by
  unfold performSlotStep
  (repeat' split) <;> simp

@[simp] theorem stepIfGranted_pending (n : Nat) : (stepIfGranted n s).pending = s.pending := by
  unfold stepIfGranted
  split <;> simp

@[simp] theorem trySlot_pending (n : Nat) : (trySlot n s).pending = s.pending := by simp [trySlot]

@[simp] theorem sendDrop_pending (sl : Slot) : (sendDrop sl s).pending = s.pending := by
  unfold sendDrop
  (repeat' split) <;> rfl

@[simp] theorem releaseHeld_pending (n : Nat) (sl : Slot) (o : NoticeOutcome) :
    (releaseHeld n sl o s).pending = s.pending := by simp [releaseHeld]

@[simp] theorem tagInquiry_pending (n : Nat) (sl : Slot) : (tagInquiry n sl s).pending = s.pending := by
  unfold tagInquiry
  split <;> rfl

@[simp] theorem redeemUnanswered_pending (n : Nat) (sl : Slot) (otherwise : Notice) :
    (redeemUnanswered n sl otherwise s).pending = s.pending := by
  unfold redeemUnanswered
  split <;> rfl

@[simp] theorem noAnswer_pending (n : Nat) (sl : Slot) : (noAnswer n sl s).pending = s.pending := by
  unfold noAnswer
  split <;> simp

@[simp] theorem withdrawRequest_pending (n : Nat) (tag : Tag) : (withdrawRequest n tag s).pending = s.pending := by
  unfold withdrawRequest
  split <;> rfl

@[simp] theorem lineNoAnswer_pending (n : Nat) : (lineNoAnswer s n).pending = s.pending := by
  unfold lineNoAnswer
  (repeat' split) <;> simp

@[simp] theorem lineFails_pending (l : LineState) : (lineFails l s).pending = s.pending := by
  unfold lineFails
  exact foldl_pending _ lineNoAnswer_pending _ _

@[simp] theorem slotHeld_pending (n : Nat) (sl : Slot) (id : HoldId) (grant avail : Nat) (isPartial : Bool) :
    (slotHeld n sl id grant avail isPartial s).pending = s.pending := rfl

@[simp] theorem slotClaimNo_pending (n : Nat) (sl : Slot) (r : Reason) :
    (slotClaimNo n sl r s).pending = s.pending := by
  unfold slotClaimNo
  split <;> simp

@[simp] theorem slotBalance_pending (n : Nat) (sl : Slot) (c : CardState) (bal avail : Nat) (q : TagResult) :
    (slotBalance n sl c bal avail q s).pending = s.pending := by
  unfold slotBalance
  split <;> rfl

@[simp] theorem slotAnswer_pending (n : Nat) (sl : Slot) (b : Body) :
    (slotAnswer n sl b s).pending = s.pending := by
  unfold slotAnswer
  (repeat' split) <;> simp

@[simp] theorem takeOpening_pending (r : OpenReq) : (takeOpening r s).pending = s.pending := by
  simp only [takeOpening]
  (repeat' split) <;> simp

@[simp] theorem confirmSlot_pending (tag : Tag) (amount : Nat) :
    (confirmSlot tag amount s).pending = s.pending := by
  simp only [confirmSlot]
  (repeat' split) <;> simp

@[simp] theorem cancelSlot_pending (tag : Tag) : (cancelSlot tag s).pending = s.pending := by
  unfold cancelSlot
  split <;> simp

@[simp] theorem enterDues_pending (n : Nat) : (enterDues n s).pending = s.pending := by
  induction n generalizing s with
  | zero => rfl
  | succ n ih =>
    unfold enterDues
    split
    · rw [ih, enterDue_pending]
    · rfl

/-! ### The Deferred Queue -/

@[simp] theorem performDqStep_pending : (performDqStep s).pending = s.pending := by
  unfold performDqStep
  (repeat' split) <;> simp

@[simp] theorem dqStepIfGranted_pending : (dqStepIfGranted s).pending = s.pending := by
  unfold dqStepIfGranted
  split <;> simp

@[simp] theorem dqDecide_pending (step : DqStep) : (dqDecide step s).pending = s.pending := by simp [dqDecide]

@[simp] theorem dqAnswer_pending (e : DeferredEntry) (b : Body) : (dqAnswer e b s).pending = s.pending := by
  unfold dqAnswer
  (repeat' split) <;> simp

@[simp] theorem offerAnswer_pending (src : Station) (b : Body) : (offerAnswer src b s).pending = s.pending := by
  unfold offerAnswer
  (repeat' split) <;> simp

@[simp] theorem forward_pending (e : DeferredEntry) : (forward e s).pending = s.pending := rfl

@[simp] theorem takeRefund_pending (card : CardNo) (origTag : Tag) (amount : Nat) :
    (takeRefund card origTag amount s).pending = s.pending := by
  unfold takeRefund
  (repeat' split) <;> simp

/-! ### The settlement round -/

@[simp] theorem startSending_pending : (startSending s).pending = s.pending := rfl

@[simp] theorem takeSettle_pending (day : Day) : (takeSettle day s).pending = s.pending := by
  unfold takeSettle
  (repeat' split) <;> rfl

@[simp] theorem tallyOpenArrives_pending (src : Station) (day : Day) :
    (tallyOpenArrives src day s).pending = s.pending := by
  unfold tallyOpenArrives
  (repeat' split) <;> rfl

@[simp] theorem openRound_pending (o : Opening) : (openRound o s).pending = s.pending := rfl

@[simp] theorem comparePeer_pending (st : Station) : (comparePeer st s).pending = s.pending := by
  unfold comparePeer
  split <;> rfl

@[simp] theorem tallyTo_pending (st : Station) (rest : List Station) : (tallyTo st rest s).pending = s.pending := by
  unfold tallyTo
  (repeat' split) <;> simp

@[simp] theorem tallyArrives_pending (src : Station) (day : Day) (block : PairLine) :
    (tallyArrives src day block s).pending = s.pending := by
  unfold tallyArrives
  split <;> rfl

@[simp] theorem receive_pending (i : Inbound) : (receive i s).pending = s.pending := by
  unfold receive
  split <;> simp

@[simp] theorem makePayout_pending (p : PayoutRecord PairState) : (makePayout p s).pending = s.pending := rfl

@[simp] theorem cutShortPeer_pending (before : StationSet) (st : Station) :
    (cutShortPeer before s st).pending = s.pending := by
  unfold cutShortPeer
  split <;> simp

@[simp] theorem cutShort_pending : (cutShort s).pending = s.pending := by
  simp [cutShort, foldl_pending _ (fun t => cutShortPeer_pending t _)]

@[simp] theorem takeRecount_pending : (takeRecount s).pending = s.pending := by
  unfold takeRecount
  (repeat' split) <;> rfl

/-! ### Frames received -/

@[simp] theorem deliver_pending (src : Station) (b : Body) : (deliver src b s).pending = s.pending := by
  unfold deliver
  (repeat' split) <;> simp

@[simp] theorem takenFrame_pending (src dst : Station) (b : Body) :
    (takenFrame src dst b s).pending = s.pending := by
  unfold takenFrame
  (repeat' split) <;> simp

/-! ### Start-up and configuration -/

@[simp] theorem reloaded_pending : (reloaded s).pending = s.pending := rfl
@[simp] theorem clearBlocks_pending : (clearBlocks s).pending = s.pending := rfl
@[simp] theorem clearQueue_pending : (clearQueue s).pending = s.pending := rfl
@[simp] theorem startUpSteps_pending (cause : Cause) : (startUpSteps cause s).pending = s.pending := rfl

@[simp] theorem beginReset_pending : (beginReset s).pending = s.pending := by
  simp only [beginReset]
  (repeat' split) <;> simp

@[simp] theorem beginPower_pending : (beginPower s).pending = s.pending := rfl
@[simp] theorem stopped_pending : (stopped s).pending = s.pending := rfl
@[simp] theorem makeConfigure_pending (c : ConfigRecord) (clamped : BitVec 16) (joining : StationSet) :
    (makeConfigure c clamped joining s).pending = s.pending := rfl

@[simp] theorem tryConfigure_pending : (tryConfigure s).pending = s.pending := by
  unfold tryConfigure
  (repeat' split) <;> rfl

@[simp] theorem takeConfigure_pending (p : ConfigParams) : (takeConfigure p s).pending = s.pending := by
  unfold takeConfigure
  split <;> simp

/-! ### The Posting Store -/

@[simp] theorem commitHead_pending (r : PostingRecord) (rest : List PostingRecord) :
    (commitHead r rest s).pending = s.pending := rfl

@[simp] theorem enteredHold_pending (tag : Tag) : (enteredHold s tag).pending = s.pending := by
  unfold enteredHold
  split <;> rfl

@[simp] theorem releasePlaced_pending (n : Notice) : (releasePlaced n s).pending = s.pending := by
  unfold releasePlaced
  split <;> simp

@[simp] theorem releaseSlotFrame_pending (slot : Nat) (tag : Tag) (dst : Station) (b : Body) :
    (releaseSlotFrame slot tag dst b s).pending = s.pending := by
  unfold releaseSlotFrame
  (repeat' split) <;> rfl

@[simp] theorem releaseDqFrame_pending (dst : Station) (b : Body) :
    (releaseDqFrame dst b s).pending = s.pending := by
  unfold releaseDqFrame
  split <;> rfl

@[simp] theorem releasePayout_pending (day : Day) : (releasePayout day s).pending = s.pending := by
  unfold releasePayout
  split <;> rfl

@[simp] theorem releaseOpened_pending (day : Day) (settle : Bool) :
    (releaseOpened day settle s).pending = s.pending := by
  unfold releaseOpened
  split <;> rfl

@[simp] theorem release_pending (d : Dependent) : (release d s).pending = s.pending := by
  unfold release
  split <;> simp

@[simp] theorem releaseAll_pending (ds : List Dependent) : (releaseAll ds s).pending = s.pending := by
  unfold releaseAll
  exact foldl_pending _ (fun t d => release_pending t d) _ _

@[simp] theorem tearWrite_pending : (tearWrite s).pending = s.pending := rfl

@[simp] theorem faultDependent_pending (d : Dependent) : (faultDependent s d).pending = s.pending := by
  unfold faultDependent
  (repeat' split) <;> rfl

@[simp] theorem faultHold_pending (e : Nat × LiveHold) : (faultHold s e).pending = s.pending := by
  unfold faultHold
  split <;> rfl

@[simp] theorem dropGranted_pending : (dropGranted s).pending = s.pending := rfl

@[simp] theorem enterWaiting_pending : (enterWaiting s).pending = s.pending := by simp [enterWaiting]

@[simp] theorem faultSlot_pending (n : Nat) : (faultSlot s n).pending = s.pending := by
  unfold faultSlot
  (repeat' split) <;> rfl

@[simp] theorem faultSlots_pending : (faultSlots s).pending = s.pending := by
  simp [faultSlots, foldl_pending _ faultSlot_pending]

@[simp] theorem faultDq_pending : (faultDq s).pending = s.pending := rfl
@[simp] theorem faultTu_pending : (faultTu s).pending = s.pending := rfl

@[simp] theorem faultTp_pending : (faultTp s).pending = s.pending := by
  simp only [faultTp]
  (repeat' split) <;> simp

@[simp] theorem storeFaulted_pending : (storeFaulted s).pending = s.pending := by
  simp [storeFaulted, foldl_pending _ faultHold_pending, foldl_pending _ faultDependent_pending]

/-! ### Till commands -/

@[simp] theorem resumeRound_pending : (resumeRound s).pending = s.pending := by
  unfold resumeRound
  split <;> rfl

@[simp] theorem joined_pending : (joined s).pending = s.pending := by simp [joined]

@[simp] theorem routeHomeOp_pending (card : CardNo) (op : HomeOp) :
    (routeHomeOp card op s).pending = s.pending := by
  unfold routeHomeOp
  split <;> rfl

@[simp] theorem routeForeign_pending (r : OpenReq) : (routeForeign r s).pending = s.pending := by
  unfold routeForeign
  (repeat' split) <;> rfl

@[simp] theorem routeCard_pending (own : LocalReq) (r : OpenReq) : (routeCard own r s).pending = s.pending := by
  unfold routeCard
  (repeat' split) <;> simp

@[simp] theorem routeConfirm_pending (tag : Tag) (amount : Nat) :
    (routeConfirm tag amount s).pending = s.pending := by
  unfold routeConfirm
  (repeat' split) <;> simp

@[simp] theorem routeCancel_pending (tag : Tag) : (routeCancel tag s).pending = s.pending := by
  unfold routeCancel
  split <;> simp

@[simp] theorem takeNotice_pending : (takeNotice s).pending = s.pending := by
  unfold takeNotice
  split <;> simp

@[simp] theorem clearEvents_pending (events : Byte) : (clearEvents events s).pending = s.pending := rfl
@[simp] theorem setMask_pending (mask : Byte) (allMask : Bool) : (setMask mask allMask s).pending = s.pending := rfl

end Queue

/-! ### Every command answers a next state -/

@[simp] theorem nextSatisfies_next {t : State} {P : State → Prop} : nextSatisfies (.next t) P ↔ P t := by
  simp [nextSatisfies]

/-- A command write answers a next state; its work leaves the queue (R10, R168). -/
theorem intake_keepsQueue (code seq : Byte) (work : State → State) (s : State)
    (hw : ∀ t, (work t).pending = t.pending) :
    nextSatisfies (intake code seq work s) fun t => t.pending = s.pending := by
  unfold intake
  split
  · simp
  · split <;> simp [hw]

/-- A command under a station-state test leaves the queue when its work does (R169). -/
theorem tested_pending (test : State → Option Reason) (work : State → State) (hw : ∀ t, (work t).pending = t.pending)
    (s : State) : (tested test work s).pending = s.pending := by
  unfold tested
  split
  · exact refuse_pending ..
  · exact hw s

/-- A complete frame answers a next state and leaves the queue (R117 to R121). -/
theorem completeFrame_keepsQueue (src dst : Station) (b : Option Body) (s : State) :
    nextSatisfies (completeFrame src dst b s) fun t => t.pending = s.pending := by
  unfold completeFrame
  (repeat' split) <;> simp

theorem completeFields_keepsQueue (src dst : Station) (b : Body) (s : State) :
    nextSatisfies (completeFields src dst b s) fun t => t.pending = s.pending := completeFrame_keepsQueue ..

/-- Every command answers a next state and leaves the queue: a till command through its intake and work, a received frame
through its reception, a step of the block by the cases of its own conditions. -/
theorem exec_keepsQueue (c : Instr) (s : State) : nextSatisfies (exec c s) fun t => t.pending = s.pending := by
  cases c with
  | configure => exact intake_keepsQueue _ _ _ _ (tested_pending _ _ fun _ => takeConfigure_pending ..)
  | join => exact intake_keepsQueue _ _ _ _ (tested_pending _ _ fun _ => joined_pending ..)
  | sell => exact intake_keepsQueue _ _ _ _ (tested_pending _ _ fun _ => handTo_pending ..)
  | close => exact intake_keepsQueue _ _ _ _ (tested_pending _ _ fun _ => routeHomeOp_pending ..)
  | freeze => exact intake_keepsQueue _ _ _ _ (tested_pending _ _ fun _ => routeHomeOp_pending ..)
  | unfreeze => exact intake_keepsQueue _ _ _ _ (tested_pending _ _ fun _ => routeHomeOp_pending ..)
  | load => exact intake_keepsQueue _ _ _ _ (tested_pending _ _ fun _ => routeCard_pending ..)
  | redeem => exact intake_keepsQueue _ _ _ _ (tested_pending _ _ fun _ => routeCard_pending ..)
  | confirm => exact intake_keepsQueue _ _ _ _ (tested_pending _ _ fun _ => routeConfirm_pending ..)
  | cancel => exact intake_keepsQueue _ _ _ _ (tested_pending _ _ fun _ => routeCancel_pending ..)
  | returnCard => exact intake_keepsQueue _ _ _ _ (tested_pending _ _ fun _ => routeCard_pending ..)
  | inquire => exact intake_keepsQueue _ _ _ _ (tested_pending _ _ fun _ => routeCard_pending ..)
  | settle => exact intake_keepsQueue _ _ _ _ (tested_pending _ _ fun _ => takeSettle_pending ..)
  | recount => exact intake_keepsQueue _ _ _ _ (tested_pending _ _ fun _ => takeRecount_pending ..)
  | takeNotice => exact intake_keepsQueue _ _ _ _ fun _ => takeNotice_pending ..
  | clearEvents => exact intake_keepsQueue _ _ _ _ fun _ => clearEvents_pending ..
  | setMask => exact intake_keepsQueue _ _ _ _ fun _ => setMask_pending ..
  | status | readCard | readCaplog | readDeferred | readPayout | readEvents =>
    simp only [exec_status, exec_readCard, exec_readCaplog, exec_readDeferred, exec_readPayout, exec_readEvents]
    refine intake_keepsQueue _ _ _ _ fun _ => ?_
    (repeat' split) <;> simp
  | stall | holdOk | holdNo | claimOk | claimNo | postOk | postNo | loadOk | loadNo | returnOk | returnNo | balance
  | inquireNo | tallyOpen | tally =>
    exact completeFields_keepsQueue ..
  | receiveQueueEntry => exact completeFrame_keepsQueue ..
  | reset | malformed | powerUp | powerFailure | resetInputAssert | resetInputRelease | reload =>
    simp only [exec, execReset, execMalformed, execPowerUp, execPowerFailure, execResetInputAssert,
      execResetInputRelease, execReload]
    (repeat' split) <;> simp
  | homeOperationTake | localRequestTake | hold | claim | drop | post | loadFrame | returnFrame | inquireFrame
  | holdExpiry =>
    simp only [exec, execHomeOperationTake, execLocalRequestTake, execHold, execClaim, execDrop, execPost,
      execLoadFrame, execReturnFrame, execInquireFrame, execHoldExpiry]
    (repeat' split) <;> simp
  | slotOpening | replyWindowExpiry | slotHoldExpiry | offlineDecision | slotDeferredEntry | actorFiling | noticeEntry =>
    simp only [exec, execSlotOpening, execReplyWindowExpiry, execSlotHoldExpiry, execOfflineDecision,
      execSlotDeferredEntry, execActorFiling, execNoticeEntry]
    (repeat' split) <;> simp
  | dqReturnTake | dqWindowExpiry | backoffExpiry | forwarderChoice | dqPendingStep =>
    simp only [exec, execDqReturnTake, execDqWindowExpiry, execBackoffExpiry, execForwarderChoice, execDqPendingStep]
    (repeat' split) <;> simp
  | bodyLengthDiscard | frameStart | arbitrationLost | bodyClash | frameSentWhole | idleGap | stuckTimerExpiry
  | startSymbol =>
    simp only [exec, execBodyLengthDiscard, execFrameStart, execArbitrationLost, execBodyClash, execFrameSentWhole,
      execIdleGap, execStuckTimerExpiry, execStartSymbol]
    (repeat' split) <;> simp
  | quietTimerExpiry | tallyTimerExpiry | computationCompletion | roundOpening | tallyOpenEntry | tallyStep
  | receptionStep | cutShortStep | payoutRecord =>
    simp only [exec, execQuietTimerExpiry, execTallyTimerExpiry, execComputationCompletion, execRoundOpening,
      execTallyOpenEntry, execTallyStep, execReceptionStep, execCutShortStep, execPayoutRecord]
    (repeat' split) <;> simp
  | storeFault | writeCompletion =>
    simp only [exec, execStoreFault, execWriteCompletion]
    (repeat' split) <;> simp

/-- Settles O2. -/
theorem everyCommandCompletes : Obligations.EveryCommandCompletes := exec_keepsQueue

end Sys2Proof.Machine

/-! ## What a step can do to the tables (R15, R42, R64, R91, R123, R139, R140)

`Effect s₀ s`: the part can come from `s₀` to `s` by the writes of its running blocks, each under the condition its rule makes
it under. Every command but a restart, a reload, JOIN and the commit of a write has such an effect (`exec_kinds`), so a law
kept by each write is kept by every step (`step_keeps`). -/
namespace Sys2Proof.Machine
open Safety

/-! ### The view of the tables -/

/-- What the laws of the tables read of the state. -/
structure View where
  cards : Table CardRecord
  held : Table Nat
  holds : Table HoldEntry
  capLog : CapLog
  liability : Nat
  slots : Table Slot
  tagSeq : Tag
  area : DeferredArea
  backoff : Table BackoffLine
  live : Table PairLine
  closing : Table PairLine
  marks : Table PairMark
  figures : Table PairLine
  payout : Option (PayoutRecord PairState)
  store : Store
  updates : List (List AreaUpdate)
  joined : Bool

/-- The tables as the state has them, and whether the station is JOINED. -/
def view (s : State) : View where
  cards := s.ctu.cards
  held := s.ctu.held
  holds := s.ctu.holds
  capLog := s.ctu.capLog
  liability := s.ctu.liability
  slots := s.su.slots
  tagSeq := s.su.tagSeq
  area := s.dq.area
  backoff := s.dq.backoff
  live := s.tu.live
  closing := s.tu.closing
  marks := s.tu.marks
  figures := s.tu.figures
  payout := s.tu.payout
  store := s.ps.store
  updates := s.ps.queue.map (·.updates)
  joined := isJoined s

/-- A record the card law allows on a serial, under this ceiling (R16, R34). -/
def cardFits (s : State) (ceiling k : Nat) (r : CardRecord) : Prop :=
  heldOf s k ≤ r.balance ∧ (isIssued r = false → r.balance = 0) ∧ r.balance ≤ max (cardOf s k).balance ceiling

/-- What the running blocks can make of a state. An account is written in JOINED alone (R131, R169). -/
inductive Effect (s₀ : State) : State → Prop
  /-- Nothing is done. -/
  | refl : Effect s₀ s₀
  /-- Nothing the view shows is changed. -/
  | plain {s t} (h : Effect s₀ s) (v : view t = view s) : Effect s₀ t
  /-- The station is not JOINED any longer. -/
  | leaves {s t} (h : Effect s₀ s) (v : view { t with tp := s.tp } = view s) (hj : isJoined t = false) : Effect s₀ t
  /-- Slots are written. -/
  | slots {s} (h : Effect s₀ s) (l : Table Slot) (hl : Table.rises s.su.slots = true → Table.rises l = true) :
      Effect s₀ { s with su := { s.su with slots := l } }
  /-- A back-off line is written. -/
  | backoff {s} (h : Effect s₀ s) (home : Station) (b : BackoffLine) : Effect s₀ (putBackoff home b s)
  /-- A posting record is made. -/
  | record {s} (h : Effect s₀ s) (us : List AreaUpdate) (ds : List Dependent)
      (hu : tablesCanonical s → us.all updateCanonical = true) : Effect s₀ (makeRecord us ds s)
  /-- The write under way is torn and the queue discarded. -/
  | torn {s} (h : Effect s₀ s) : Effect s₀ (tearWrite s)
  /-- The DEFERRED entries change. -/
  | area {s} (h : Effect s₀ s) (hj : isJoined s = true) (a : DeferredArea) : Effect s₀ (putDeferred a s)
  /-- The tag sequence advances. -/
  | tagSeq {s} (h : Effect s₀ s) (hj : isJoined s = true) (t : Tag) : Effect s₀ (putTagSeq t s)
  /-- Pair lines are written. -/
  | lines {s} (h : Effect s₀ s) (hj : isJoined s = true) (l c : Table PairLine)
      (hw : tablesCanonical s → Table.wf blankLine l = true ∧ Table.wf blankLine c = true) :
      Effect s₀ { s with tu := { s.tu with live := l, closing := c } }
  /-- Pair marks are written. -/
  | marks {s} (h : Effect s₀ s) (m : Table PairMark)
      (hw : Table.wf PairMark.none s.tu.marks = true → Table.wf PairMark.none m = true) :
      Effect s₀ { s with tu := { s.tu with marks := m } }
  /-- Peer figures are written. -/
  | figures {s} (h : Effect s₀ s) (f : Table PairLine) (hw : Table.rises s.tu.figures = true → Table.rises f = true) :
      Effect s₀ { s with tu := { s.tu with figures := f } }
  /-- The payout record is replaced. -/
  | payout {s} (h : Effect s₀ s) (hj : isJoined s = true) (p : PayoutRecord PairState) :
      Effect s₀ { s with tu := { s.tu with payout := some p } }
  /-- The capture log is replaced. -/
  | capLog {s} (h : Effect s₀ s) (hj : isJoined s = true) (l : CapLog) : Effect s₀ (putCapLog l s)
  /-- A hold is made in a free entry, for no more than is available (R42, R44). -/
  | made {s} (h : Effect s₀ s) (i : Nat) (l : LiveHold) (hi : (holdAt s i).live = none)
      (hg : l.grant ≤ available s l.serial) : Effect s₀ (makeHold i l s)
  /-- A live entry becomes free (R42). -/
  | freed {s} (h : Effect s₀ s) (i : Nat) (l : LiveHold)
      (hl : Table.rises s₀.ctu.holds = true → (holdAt s i).live = some l) : Effect s₀ (freeEntry i l s)
  /-- A live entry keeps another number of notice places (R59). -/
  | placed {s} (h : Effect s₀ s) (i : Nat) (l : LiveHold) (n : Nat)
      (hl : Table.rises s₀.ctu.holds = true → (holdAt s i).live = some l) :
      Effect s₀ (putHold i ⟨(holdAt s i).gen, some { l with places := n }⟩ s)
  /-- A card record that fits is written. -/
  | card {s} (h : Effect s₀ s) (hj : isJoined s = true) (k : Nat) (r : CardRecord)
      (hr : cardLaw s → cardFits s s₀.tp.config.ceiling k r) : Effect s₀ (putCard k r s)
  /-- A live hold is claimed: its entry becomes free, and the balance falls by no more than the grant (R47). -/
  | claimed {s} (h : Effect s₀ s) (hj : isJoined s = true) (i amount : Nat) (l : LiveHold) (r : CardRecord)
      (hl : Table.rises s₀.ctu.holds = true → (holdAt s i).live = some l) (ha : amount ≤ l.grant)
      (hb : r.balance = (cardOf s l.serial).balance - amount) (hr : r.state = (cardOf s l.serial).state) :
      Effect s₀ (putCard l.serial r (freeEntry i l s))

/-- A write that the view does not show. -/
theorem Effect.plain_iff {s₀ s t : State} (v : view t = view s) : Effect s₀ t ↔ Effect s₀ s :=
  ⟨fun h => h.plain v.symm, fun h => h.plain v⟩

/-- A fold of steps that each have an effect has one. -/
theorem Effect.foldl {s₀ : State} {α : Type} (f : State → α → State) (hf : ∀ s a, Effect s₀ s → Effect s₀ (f s a))
    (l : List α) {s : State} (h : Effect s₀ s) : Effect s₀ (l.foldl f s) := by
  induction l generalizing s with
  | nil => exact h
  | cons a l ih => exact ih (hf s a h)

/-- The hold table stays in order. -/
theorem Effect.holds_rises {s₀ s : State} (h : Effect s₀ s) (hr : Table.rises s₀.ctu.holds = true) :
    Table.rises s.ctu.holds = true := by
  induction h with
  | refl => exact hr
  | plain _ v ih | leaves _ v _ ih => exact (congrArg (fun x => Table.rises (View.holds x)) v).trans ih
  | made _ _ _ _ _ ih | freed _ _ _ _ ih | placed _ _ _ _ _ ih | claimed _ _ _ _ _ _ _ _ _ _ ih =>
    exact Table.rises_set _ _ _ ih
  | _ => assumption

section Walk
variable {s₀ : State} (s : State)

/-! ### Operations the view does not show -/

@[simp] theorem effect_setEvent (e : Event) : Effect s₀ (setEvent e s) ↔ Effect s₀ s := Effect.plain_iff rfl
@[simp] theorem effect_complete (r : Result) (w : Reason) (g : Tag) (d : List Byte) :
    Effect s₀ (complete r w g d s) ↔ Effect s₀ s := Effect.plain_iff rfl
@[simp] theorem effect_accept (g : Tag) (d : List Byte) : Effect s₀ (accept g d s) ↔ Effect s₀ s := Effect.plain_iff rfl
@[simp] theorem effect_refuse (w : Reason) : Effect s₀ (refuse w s) ↔ Effect s₀ s := Effect.plain_iff rfl
@[simp] theorem effect_refuseNamed (w : Reason) (g : Tag) : Effect s₀ (refuseNamed w g s) ↔ Effect s₀ s :=
  Effect.plain_iff rfl
@[simp] theorem effect_handTo (w : Hand) : Effect s₀ (handTo w s) ↔ Effect s₀ s := Effect.plain_iff rfl
@[simp] theorem effect_takePlaces (n : Nat) : Effect s₀ (takePlaces n s) ↔ Effect s₀ s := Effect.plain_iff rfl
@[simp] theorem effect_freeTaken (n : Nat) : Effect s₀ (freeTaken n s) ↔ Effect s₀ s := Effect.plain_iff rfl
@[simp] theorem effect_enterNotice (n : Notice) : Effect s₀ (enterNotice n s) ↔ Effect s₀ s := Effect.plain_iff rfl
@[simp] theorem effect_enterPlaced (n : Notice) : Effect s₀ (enterPlaced n s) ↔ Effect s₀ s := Effect.plain_iff rfl
@[simp] theorem effect_fallDue (n : Notice) (o : Option Nat) (b : Bool) : Effect s₀ (fallDue n o b s) ↔ Effect s₀ s :=
  Effect.plain_iff rfl
@[simp] theorem effect_reserve (c : TxClass) : Effect s₀ (reserve c s) ↔ Effect s₀ s := Effect.plain_iff rfl
@[simp] theorem effect_unreserve (c : TxClass) : Effect s₀ (unreserve c s) ↔ Effect s₀ s := Effect.plain_iff rfl
@[simp] theorem effect_enqueue (c : TxClass) (d : Station) (b : Body) : Effect s₀ (enqueue c d b s) ↔ Effect s₀ s :=
  Effect.plain_iff rfl
@[simp] theorem effect_enterReserved (c : TxClass) (d : Station) (b : Body) :
    Effect s₀ (enterReserved c d b s) ↔ Effect s₀ s := Effect.plain_iff rfl
@[simp] theorem effect_withdraw (c : TxClass) : Effect s₀ (withdraw c s) ↔ Effect s₀ s := Effect.plain_iff rfl
@[simp] theorem effect_passTurn (w : Turn) : Effect s₀ (passTurn w s) ↔ Effect s₀ s := Effect.plain_iff rfl
@[simp] theorem effect_settleWaiting : Effect s₀ (settleWaiting s) ↔ Effect s₀ s := Effect.plain_iff rfl
@[simp] theorem effect_leaveWaiting (w : WaitStep) : Effect s₀ (leaveWaiting w s) ↔ Effect s₀ s := Effect.plain_iff rfl
@[simp] theorem effect_putReceiver (r : Receiver) : Effect s₀ (putReceiver r s) ↔ Effect s₀ s := Effect.plain_iff rfl
@[simp] theorem effect_stopSending : Effect s₀ (stopSending s) ↔ Effect s₀ s := Effect.plain_iff rfl
@[simp] theorem effect_mapHead (f : TxFrame → TxFrame) (c : TxClass) : Effect s₀ (mapHead f c s) ↔ Effect s₀ s :=
  Effect.plain_iff rfl
@[simp] theorem effect_frameEnded : Effect s₀ (frameEnded s) ↔ Effect s₀ s := Effect.plain_iff rfl
@[simp] theorem effect_answerNow (d : Station) (b : Body) : Effect s₀ (answerNow d b s) ↔ Effect s₀ s :=
  Effect.plain_iff rfl
@[simp] theorem effect_popLine : Effect s₀ (popLine s) ↔ Effect s₀ s := Effect.plain_iff rfl
@[simp] theorem effect_popLocal : Effect s₀ (popLocal s) ↔ Effect s₀ s := Effect.plain_iff rfl
@[simp] theorem effect_beginComputation : Effect s₀ (beginComputation s) ↔ Effect s₀ s := Effect.plain_iff rfl
@[simp] theorem effect_startSending : Effect s₀ (startSending s) ↔ Effect s₀ s := Effect.plain_iff rfl
@[simp] theorem effect_dropGranted : Effect s₀ (dropGranted s) ↔ Effect s₀ s := Effect.plain_iff rfl
@[simp] theorem effect_faultDq : Effect s₀ (faultDq s) ↔ Effect s₀ s := Effect.plain_iff rfl
@[simp] theorem effect_faultTu : Effect s₀ (faultTu s) ↔ Effect s₀ s := Effect.plain_iff rfl
@[simp] theorem effect_takeCommand (code seq : Byte) : Effect s₀ (takeCommand code seq s) ↔ Effect s₀ s :=
  Effect.plain_iff rfl
@[simp] theorem effect_clearEvents (e : Byte) : Effect s₀ (clearEvents e s) ↔ Effect s₀ s := Effect.plain_iff rfl
@[simp] theorem effect_setMask (m : Byte) (a : Bool) : Effect s₀ (setMask m a s) ↔ Effect s₀ s := Effect.plain_iff rfl

@[simp] theorem effect_restartComputation : Effect s₀ (restartComputation s) ↔ Effect s₀ s :=
  Effect.plain_iff (by unfold restartComputation; split <;> rfl)
@[simp] theorem effect_announce (src : Station) (g : Tag) : Effect s₀ (announce src g s) ↔ Effect s₀ s :=
  Effect.plain_iff (by unfold announce; split <;> rfl)
@[simp] theorem effect_sendDrop (sl : Slot) : Effect s₀ (sendDrop sl s) ↔ Effect s₀ s :=
  Effect.plain_iff (by unfold sendDrop; (repeat' split) <;> rfl)
@[simp] theorem effect_releaseDqFrame (d : Station) (b : Body) : Effect s₀ (releaseDqFrame d b s) ↔ Effect s₀ s :=
  Effect.plain_iff (by unfold releaseDqFrame; split <;> rfl)
@[simp] theorem effect_releasePayout (d : Day) : Effect s₀ (releasePayout d s) ↔ Effect s₀ s :=
  Effect.plain_iff (by unfold releasePayout; split <;> rfl)
@[simp] theorem effect_releaseOpened (d : Day) (b : Bool) : Effect s₀ (releaseOpened d b s) ↔ Effect s₀ s :=
  Effect.plain_iff (by unfold releaseOpened; split <;> rfl)
@[simp] theorem effect_takeSettle (d : Day) : Effect s₀ (takeSettle d s) ↔ Effect s₀ s :=
  Effect.plain_iff (by unfold takeSettle; (repeat' split) <;> rfl)
@[simp] theorem effect_tallyOpenArrives (src : Station) (d : Day) : Effect s₀ (tallyOpenArrives src d s) ↔ Effect s₀ s :=
  Effect.plain_iff (by unfold tallyOpenArrives; (repeat' split) <;> rfl)
@[simp] theorem effect_tallyArrives (src : Station) (d : Day) (b : PairLine) :
    Effect s₀ (tallyArrives src d b s) ↔ Effect s₀ s :=
  Effect.plain_iff (by unfold tallyArrives; split <;> rfl)
@[simp] theorem effect_takeRecount : Effect s₀ (takeRecount s) ↔ Effect s₀ s :=
  Effect.plain_iff (by unfold takeRecount; (repeat' split) <;> rfl)
@[simp] theorem effect_routeHomeOp (card : CardNo) (op : HomeOp) : Effect s₀ (routeHomeOp card op s) ↔ Effect s₀ s :=
  Effect.plain_iff (by unfold routeHomeOp; split <;> rfl)
@[simp] theorem effect_routeCard (own : LocalReq) (r : OpenReq) : Effect s₀ (routeCard own r s) ↔ Effect s₀ s :=
  Effect.plain_iff (by unfold routeCard routeForeign; (repeat' split) <;> rfl)

/-! ### Queued records with other dependents (R41, R59, R69) -/

theorem attachYoungest_updates (d : Dependent) : ∀ q : List PostingRecord,
    (attachYoungest d q).map (·.updates) = q.map (·.updates)
  | [] => rfl
  | [_] => rfl
  | r :: r' :: q => by simp [attachYoungest, attachYoungest_updates d (r' :: q)]

theorem attachAfterGranted_updates (g : Tag) (d : Dependent) (q : List PostingRecord) :
    (attachAfterGranted g d q).map (·.updates) = q.map (·.updates) := by
  induction q with
  | nil => rfl
  | cons r q ih =>
    unfold attachAfterGranted
    split
    · rfl
    · rw [List.map_cons, ih, List.map_cons]

/-- A queue with the same area updates: nothing the view shows is changed. -/
theorem view_of_queue (q : List PostingRecord) (lc : Lc) (h : q.map (·.updates) = s.ps.queue.map (·.updates)) :
    view { s with lc := lc, ps := { s.ps with queue := q } } = view s := by
  unfold view
  simp only [h]
  rfl

@[simp] theorem effect_answerAfterRecords (d : Station) (b : Body) : Effect s₀ (answerAfterRecords d b s) ↔ Effect s₀ s := by
  unfold answerAfterRecords
  split
  · simp
  · exact Effect.plain_iff (view_of_queue s _ _ (attachYoungest_updates _ _))

@[simp] theorem effect_secondNotice (h : LiveHold) (n : Notice) (asked : Nat) :
    Effect s₀ (secondNotice h n asked s) ↔ Effect s₀ s := by
  unfold secondNotice
  split
  · exact Effect.plain_iff (view_of_queue s _ s.lc (attachAfterGranted_updates _ _ _))
  · simp

@[simp] theorem effect_withdrawRequest (n : Nat) (g : Tag) : Effect s₀ (withdrawRequest n g s) ↔ Effect s₀ s := by
  unfold withdrawRequest
  split
  · exact Effect.plain_iff (view_of_queue s _ _ (by simp))
  · rfl

end Walk
end Sys2Proof.Machine

namespace Sys2Proof.Machine
open Safety

/-! ### Conditions of the writes -/

/-- Every waiting step but the Card Table Unit's line take and CONFIGURE is made in JOINED alone (R131, R173). -/
theorem isJoined_of_granted {s : State} {w : WaitStep} (h : isGranted s w = true) (hw : w ≠ .configure) (hw' : w ≠ .ctuLine) :
    isJoined s = true := by
  have hr := granted_ready ((isGranted_iff s w).1 h)
  cases w with
  | configure => exact absurd rfl hw
  | ctuLine => exact absurd rfl hw'
  | ctuLocal =>
    simp only [stepReady, stepStands, localWaits, Bool.and_eq_true, and_assoc] at hr
    exact hr.1
  | forwarder =>
    simp only [stepReady, forwarderReady, Bool.and_eq_true, and_assoc] at hr
    exact hr.1
  | roundOpening =>
    simp only [stepReady, openingReady, Bool.and_eq_true, and_assoc] at hr
    exact hr.1
  | tally =>
    simp only [stepReady, tallyReady, Bool.and_eq_true, and_assoc] at hr
    exact hr.1
  | slot n =>
    simp only [stepReady, stepStands, Bool.and_eq_true, and_assoc] at hr
    exact hr.1
  | opening | dqReturn | dqPending | cutShort | reception | payout =>
    simp only [stepReady, stepStands, Bool.and_eq_true] at hr
    exact hr.1

/-- A station whose Card Table Unit runs is JOINED, or in HALTED-STORE (R61, R173). -/
theorem isJoined_of_open {s : State} (h : isOpen s = true) (hh : isHalted s = false) : isJoined s = true := by
  simp only [isOpen, isJoined, isHalted, Bool.and_eq_true, Bool.or_eq_true, decide_eq_true_eq, decide_eq_false_iff_not] at *
  exact ⟨h.1, h.2.resolve_right hh⟩

theorem isOpen_of_takesLine {s : State} (h : takesLine s = true) : isOpen s = true := by
  simp only [takesLine, lineReady, lineRoom, Bool.and_eq_true, and_assoc] at h
  exact h.1

theorem isJoined_of_takesLocal {s : State} (h : takesLocal s = true) : isJoined s = true := by
  simp only [takesLocal, localReady, localWaits, Bool.and_eq_true, and_assoc] at h
  exact h.1

/-- The index found passes the test. -/
theorem lowest_passes {p : Nat → Bool} {n k i : Nat} (h : lowest p n k = some i) : p i = true := by
  induction n generalizing k with
  | zero => cases h
  | succ n ih =>
    unfold lowest at h
    split at h
    · cases h; assumption
    · exact ih h

theorem freeHold_free {s : State} {i : Nat} (h : freeHold s = some i) : (holdAt s i).live = none := by
  simpa using lowest_passes h

/-- The hold a CLAIM or DROP names is live (R47, R49). -/
theorem namedHold_live {s : State} {id : HoldId} {src : Station} {g : Tag} {l : LiveHold}
    (h : namedHold s id src g = some l) : (holdAt s (holdIndex id)).live = some l := by
  unfold namedHold at h
  split at h
  · exact (Option.filter_eq_some_iff.1 h).1
  · cases h

theorem claimHold_live {s : State} {src : Station} {g : Tag} {card : CardNo} {id : HoldId} {l : LiveHold}
    (h : claimHold s src g card id = some l) : (holdAt s (holdIndex id)).live = some l ∧ l.serial = cardSerial card := by
  obtain ⟨hn, hs⟩ := Option.filter_eq_some_iff.1 h
  exact ⟨namedHold_live hn, by simpa using hs⟩

/-- A value listed in a rising table is found. -/
theorem Table.find_of_mem {α : Type} {n : Nat} {t : Table α} {k : Nat} {v : α} (h : Table.risesFrom n t = true)
    (hm : (k, v) ∈ t) : Table.find t k = some v := by
  induction t generalizing n with
  | nil => cases hm
  | cons e t ih =>
    obtain ⟨i, w⟩ := e
    simp only [Table.risesFrom, Bool.and_eq_true, decide_eq_true_eq] at h
    rcases List.mem_cons.1 hm with he | hm
    · cases he; simp [Table.find_cons]
    · have hk : i + 1 ≤ k := by
        by_contra hc
        have := ih h.2 hm
        rw [Table.find_of_lt h.2 (by omega)] at this
        cases this
      rw [Table.find_cons, if_neg (by omega), if_neg (by omega), ih h.2 hm]

theorem mem_liveHolds {s : State} {i : Nat} {l : LiveHold} :
    (i, l) ∈ liveHolds s ↔ ∃ e, (i, e) ∈ s.ctu.holds ∧ e.live = some l := by
  simp [liveHolds]

/-- In a rising hold table the live entries are those listed as live. -/
theorem holdAt_of_mem_liveHolds {s : State} {i : Nat} {l : LiveHold} (hr : Table.rises s.ctu.holds = true)
    (h : (i, l) ∈ liveHolds s) : (holdAt s i).live = some l := by
  obtain ⟨e, he, hl⟩ := mem_liveHolds.1 h
  rw [holdAt, Table.get, Table.find_of_mem hr he]
  exact hl

theorem localHold_live {s : State} {g : Tag} {i : Nat} {l : LiveHold} (hr : Table.rises s.ctu.holds = true)
    (h : localHold s g = some (i, l)) : (holdAt s i).live = some l :=
  holdAt_of_mem_liveHolds hr (List.mem_of_mem_filter (List.mem_of_find?_eq_some h))

theorem isIssued_congr {r r' : CardRecord} (h : r.state = r'.state) : isIssued r = isIssued r' := by
  simp only [isIssued, h]

/-- A card that passes the STATE, STALE and CHECK steps is issued (R40). -/
theorem isIssued_of_cardChecks {s : State} {card : CardNo} {check : Option Check} (h : cardChecks s card check = none) :
    isIssued (cardOf s (cardSerial card)) = true := by
  by_contra hc
  rw [Bool.not_eq_true] at hc
  simp [cardChecks, hc] at h

theorem cardChecks_of_sequence {s : State} {src : Station} {card : CardNo} {check : Option Check}
    (h : checkSequence s src card check = none) : cardChecks s card check = none := by
  unfold checkSequence at h
  split at h
  · cases h
  · exact h

theorem cardChecks_of_local {s : State} {card : CardNo} {check : Option Check} (h : localChecks s card check = none) :
    cardChecks s card check = none := by
  unfold localChecks at h
  split at h
  · cases h
  · exact h

theorem ceiling_of_loadTests {s : State} {k amount : Nat} (h : loadTests s k amount = none) :
    (cardOf s k).balance + amount ≤ s.tp.config.ceiling := by
  unfold loadTests at h
  (repeat' split at h) <;> cases h
  omega

theorem ceiling_of_returnTests {s : State} {src : Station} {g : Tag} {k amount : Nat}
    (h : returnTests s src g k amount = none) : (cardOf s k).balance + amount ≤ s.tp.config.ceiling := by
  unfold returnTests at h
  (repeat' split at h) <;> cases h
  omega

/-- A hold is granted on a free entry, for no more than is available (R44). -/
theorem grantTests_grant {s : State} {k amount grant : Nat} {split : Bool} (h : grantTests s k amount split = .inr grant) :
    (holdAt s ((freeHold s).getD 0)).live = none ∧ grant ≤ available s k := by
  unfold grantTests at h
  split at h
  · cases h
  · next hf =>
    obtain ⟨i, hi⟩ := Option.ne_none_iff_exists'.1 (not_or.1 hf).2
    refine ⟨by rw [hi]; exact freeHold_free hi, ?_⟩
    (repeat' split at h) <;> cases h
    · assumption
    · exact Nat.le_refl _

/-- A POST takes no more than is available (R51). -/
theorem postTaking_le (s : State) (k amount : Nat) : (postTaking s k amount).1 ≤ available s k := by
  unfold postTaking
  (repeat' split) <;> simp_all

/-- The home till operations leave records that fit: a sold card carries its amount, a closed one nothing (R27 to R30). -/
theorem cardFits_of_homeDecision {s : State} {op : HomeOp} {k asked : Nat} {r : CardRecord} {n : Notice}
    (h : homeDecision s op = .inr (k, r, n, asked)) (hl : cardLaw s) : cardFits s s.tp.config.ceiling k r := by
  obtain ⟨-, -, -, hk⟩ := hl
  unfold homeDecision at h
  cases op with
  | sell amount expiry =>
    simp only at h
    split_ifs at h with ha he
    cases hs : sellable s with
    | none => rw [hs] at h; cases h
    | some serial =>
      rw [hs] at h
      cases h
      have hi : isIssued (cardOf s k) = false := by simpa using lowest_passes hs
      have h0 := (hk k).1
      rw [(hk k).2 hi] at h0
      refine ⟨by simp only [soldCard]; omega, fun hf => ?_, ?_⟩
      · simp [isIssued, soldCard] at hf
      · exact le_max_of_le_right (Nat.le_of_not_lt (not_or.1 ha).2)
  | close card =>
    simp only at h
    (repeat' split at h) <;> cases h
    next hh => exact ⟨Nat.le_of_not_lt hh, fun _ => rfl, Nat.zero_le _⟩
  | freeze card =>
    simp only at h
    (repeat' split at h) <;> cases h
    exact ⟨(hk _).1, fun hf => by simp [isIssued] at hf, Nat.le_max_left _ _⟩
  | unfreeze card =>
    simp only at h
    (repeat' split at h) <;> cases h
    exact ⟨(hk _).1, fun hf => by simp [isIssued] at hf, Nat.le_max_left _ _⟩

/-- A record with the same state and balance fits. -/
theorem cardFits_same {s : State} {ceiling k : Nat} {r : CardRecord} (hs : r.state = (cardOf s k).state)
    (hb : r.balance = (cardOf s k).balance) (hl : cardLaw s) : cardFits s ceiling k r := by
  obtain ⟨-, -, -, hk⟩ := hl
  refine ⟨hb ▸ (hk k).1, fun hi => ?_, hb ▸ Nat.le_max_left _ _⟩
  rw [hb]
  exact (hk k).2 (isIssued_congr hs ▸ hi)

/-- A record whose balance has fallen by no more than was available fits. -/
theorem cardFits_less {s : State} {ceiling k amount : Nat} {r : CardRecord} (hs : r.state = (cardOf s k).state)
    (hb : r.balance = (cardOf s k).balance - amount) (ha : amount ≤ available s k) (hl : cardLaw s) :
    cardFits s ceiling k r := by
  obtain ⟨-, -, -, hk⟩ := hl
  obtain ⟨hh, hi⟩ := hk k
  unfold available at ha
  refine ⟨by omega, fun hf => ?_, by omega⟩
  have := hi (isIssued_congr hs ▸ hf)
  omega

/-- An issued card whose balance has risen to no more than the ceiling fits. -/
theorem cardFits_more {s : State} {ceiling k amount : Nat} {r : CardRecord} (hs : r.state = (cardOf s k).state)
    (hb : r.balance = (cardOf s k).balance + amount) (hi : isIssued (cardOf s k) = true)
    (hc : (cardOf s k).balance + amount ≤ ceiling) (hl : cardLaw s) : cardFits s ceiling k r := by
  obtain ⟨-, -, -, hk⟩ := hl
  have hh := (hk k).1
  refine ⟨by omega, fun hf => ?_, by omega⟩
  rw [isIssued_congr hs, hi] at hf
  cases hf

/-- The lines, marks and figures of a canonical state are canonical. -/
theorem pairs_of_canonical {s : State} (h : tablesCanonical s) : Table.wf blankLine s.tu.live = true ∧
    Table.wf blankLine s.tu.closing = true ∧ Table.wf PairMark.none s.tu.marks = true := by
  obtain ⟨-, -, -, -, -, hl, hc, hm, -, -, -⟩ := h
  exact ⟨hl, hc, hm⟩

/-- A filing's updates carry no whole table. -/
theorem fileActor_canonical (home : Station) (p : FilePos) (amount : Nat) (day : Day) (s : State) :
    (fileActor home p amount day s).2.all updateCanonical = true := by
  unfold fileActor
  cases filePlace s home day <;> simp only [reduceCtorEq, if_true, if_false]
  · rfl
  · rfl
  · split <;> rfl

end Sys2Proof.Machine

namespace Sys2Proof.Machine
open Safety

section Walk
variable {s₀ s : State} (h : Effect s₀ s)
include h

/-! ### Slots -/

@[simp] theorem effect_putSlot (n : Nat) (sl : Slot) : Effect s₀ (putSlot n sl s) := h.slots _ (Table.rises_put n sl)
@[simp] theorem effect_freeSlot (n : Nat) : Effect s₀ (freeSlot n s) := h.slots _ (Table.rises_drop n)
@[simp] theorem effect_endSlot (n : Nat) (sl : Slot) (m : Notice) : Effect s₀ (endSlot n sl m s) := by
  simp [endSlot, h]
@[simp] theorem effect_waitStep (n : Nat) (sl : Slot) (w : SlotStep) : Effect s₀ (waitStep n sl w s) := effect_putSlot h ..
@[simp] theorem effect_fileStep (n : Nat) (sl : Slot) (p : FilePos) (amount : Nat) (day : Option Day) (m : Notice) :
    Effect s₀ (fileStep n sl p amount day m s) := effect_putSlot h ..
@[simp] theorem effect_slotHeld (n : Nat) (sl : Slot) (id : HoldId) (grant avail : Nat) (b : Bool) :
    Effect s₀ (slotHeld n sl id grant avail b s) := by simp [slotHeld, h]

@[simp] theorem effect_releaseHeld (n : Nat) (sl : Slot) (o : NoticeOutcome) : Effect s₀ (releaseHeld n sl o s) := by
  simp [releaseHeld, h]

@[simp] theorem effect_tagInquiry (n : Nat) (sl : Slot) : Effect s₀ (tagInquiry n sl s) := by
  unfold tagInquiry
  split <;> simp [h]

@[simp] theorem effect_redeemUnanswered (n : Nat) (sl : Slot) (m : Notice) : Effect s₀ (redeemUnanswered n sl m s) := by
  unfold redeemUnanswered
  split <;> simp [h]

@[simp] theorem effect_noAnswer (n : Nat) (sl : Slot) : Effect s₀ (noAnswer n sl s) := by
  unfold noAnswer
  split <;> simp [h]

@[simp] theorem effect_slotClaimNo (n : Nat) (sl : Slot) (r : Reason) : Effect s₀ (slotClaimNo n sl r s) := by
  unfold slotClaimNo
  split <;> simp [h]

@[simp] theorem effect_slotBalance (n : Nat) (sl : Slot) (c : CardState) (bal avail : Nat) (q : TagResult) :
    Effect s₀ (slotBalance n sl c bal avail q s) := by
  unfold slotBalance
  split <;> simp [h]

@[simp] theorem effect_slotAnswer (n : Nat) (sl : Slot) (b : Body) : Effect s₀ (slotAnswer n sl b s) := by
  unfold slotAnswer
  (repeat' split) <;> simp [h]

@[simp] theorem effect_confirmSlot (g : Tag) (amount : Nat) : Effect s₀ (confirmSlot g amount s) := by
  simp only [confirmSlot]
  (repeat' split) <;> simp [h]

@[simp] theorem effect_cancelSlot (g : Tag) : Effect s₀ (cancelSlot g s) := by
  unfold cancelSlot
  split <;> simp [h]

@[simp] theorem effect_enterDue (d : DueNotice) : Effect s₀ (enterDue d s) := by
  have hd : Effect s₀ (enterNotice d.notice { s with su := { s.su with due := s.su.due.tail } }) := h.plain rfl
  unfold enterDue
  (repeat' split) <;> simp [hd]

@[simp] theorem effect_enterDues (n : Nat) : Effect s₀ (enterDues n s) := by
  induction n generalizing s with
  | zero => exact h
  | succ n ih =>
    unfold enterDues
    split
    · exact ih (effect_enterDue h _)
    · exact h

@[simp] theorem effect_takeNotice : Effect s₀ (takeNotice s) := by
  unfold takeNotice
  split
  · refine effect_enterDues ?_ _
    exact h.plain rfl
  · simp [h]

/-! ### Pair tables and records -/

@[simp] theorem effect_putMark (st : Station) (m : PairMark) : Effect s₀ (putMark st m s) := h.marks _ (Table.wf_set _ _)

@[simp] theorem effect_comparePeer (st : Station) : Effect s₀ (comparePeer st s) := by
  unfold comparePeer
  split <;> simp [h]

@[simp] theorem effect_cutShortPeer (before : StationSet) (st : Station) : Effect s₀ (cutShortPeer before s st) := by
  unfold cutShortPeer
  split <;> simp [h]

theorem effect_cutShort : Effect s₀ (cutShort s) := by
  refine Effect.record (s := beginComputation _) ?_ _ _ fun hc => ?_
  · rw [effect_beginComputation]
    exact Effect.foldl _ (fun _ _ h => effect_cutShortPeer h ..) _ (h.plain rfl)
  · obtain ⟨-, hcl, hm⟩ := pairs_of_canonical hc
    simp only [List.all_cons, List.all_nil, updateCanonical, hcl, hm, Bool.and_self]

theorem effect_receive (i : Inbound) : Effect s₀ (receive i s) := by
  have h1 : Effect s₀ { s with tu := { s.tu with
      inbound := s.tu.inbound.tail, figures := Table.put s.tu.figures i.src.toNat i.block } } :=
    (h.figures _ (Table.rises_put _ _)).plain rfl
  simp only [receive]
  split
  · exact Effect.record (by simp [h1]) _ _ fun _ => rfl
  · exact Effect.record (by simp [h1]) _ _ fun _ => rfl

theorem effect_tallyTo (st : Station) (rest : List Station) : Effect s₀ (tallyTo st rest s) := by
  simp only [tallyTo]
  split
  · exact (effect_enqueue ..).2 (h.plain rfl)
  · refine Effect.record ((effect_reserve ..).2 (effect_comparePeer ?_ _)) _ _ fun _ => rfl
    exact h.plain rfl

theorem effect_makeConfigure (c : ConfigRecord) (m : BitVec 16) (j : StationSet) : Effect s₀ (makeConfigure c m j s) := by
  refine Effect.record (s := handTo .configureMade _) ?_ _ _ fun _ => ?_
  · exact h.plain rfl
  · (repeat' split) <;> rfl

@[simp] theorem effect_tryConfigure : Effect s₀ (tryConfigure s) := by
  unfold tryConfigure
  split
  · split
    · exact (effect_settleWaiting _).2 (effect_makeConfigure ((effect_leaveWaiting ..).2 h) ..)
    · exact h
  · exact h

@[simp] theorem effect_takeConfigure (p : ConfigParams) : Effect s₀ (takeConfigure p s) := by
  unfold takeConfigure
  split <;> simp [h]

end Walk

/-! ### Steps made in JOINED -/

section Joined
variable {s₀ s : State} (h : Effect s₀ s) (hj : isJoined s = true)
include h hj

theorem effect_fileActor (home : Station) (p : FilePos) (amount : Nat) (day : Day) :
    Effect s₀ (fileActor home p amount day s).1 := by
  have hlive : Effect s₀ { s with tu := { s.tu with
      live := Table.set blankLine s.tu.live home.toNat (countActor (liveLine s home) p amount) } } :=
    h.lines hj _ s.tu.closing fun hc => by
      obtain ⟨hl, hcl, -⟩ := pairs_of_canonical hc
      exact ⟨Table.wf_set _ _ hl, hcl⟩
  unfold fileActor
  cases filePlace s home day <;> simp only [reduceCtorEq, if_true, if_false]
  · exact hlive
  · exact h.lines hj s.tu.live _ fun hc => by
      obtain ⟨hl, hcl, -⟩ := pairs_of_canonical hc
      exact ⟨hl, Table.wf_set _ _ hcl⟩
  · split_ifs <;> simp [hlive]

theorem effect_joinEntry (n : Nat) (sl : Slot) (e : DeferredEntry) (m : Notice) : Effect s₀ (joinEntry n sl e m s) :=
  ((effect_putSlot h n _).area hj _).record _ _ fun _ => rfl

theorem effect_performSlotStep (n : Nat) : Effect s₀ (performSlotStep n s) := by
  unfold performSlotStep
  split
  · exact h
  · split
    · exact h
    · split
      · simp [h]
      · exact effect_joinEntry h hj ..
    · exact effect_joinEntry h hj ..
    · exact effect_joinEntry h hj ..
    · exact (effect_putSlot (effect_fileActor h hj ..) ..).record _ _ fun _ => fileActor_canonical ..

theorem effect_performDqStep : Effect s₀ (performDqStep s) := by
  have hp : ∀ a, Effect s₀ (putDeferred a { s with dq := { s.dq with pending := none } }) :=
    fun a => (Effect.plain h rfl : Effect s₀ { s with dq := { s.dq with pending := none } }).area hj a
  unfold performDqStep
  split
  · split
    · exact (hp _).record _ _ fun _ => rfl
    · exact (hp _).record _ _ fun _ => rfl
    · simp only
      split
      · exact (effect_fileActor (hp _) hj ..).record _ _ fun _ => fileActor_canonical ..
      · exact (hp _).record _ _ fun _ => rfl
  · exact h

theorem effect_forward (e : DeferredEntry) : Effect s₀ (forward e s) :=
  Effect.record ((effect_reserve ..).2 (h.area hj _)) _ _ fun _ => rfl

theorem effect_openRound (o : Opening) : Effect s₀ (openRound o s) := by
  have ht : Effect s₀ { s with tu := { s.tu with live := [], closing := s.tu.live, marks := [], figures := [] } } :=
    ((h.lines hj [] s.tu.live fun hc => ⟨rfl, (pairs_of_canonical hc).1⟩).marks [] fun _ => rfl).figures [] fun _ => rfl
  refine Effect.record ?_ _ _ fun hc => ?_
  · exact ht.plain rfl
  · obtain ⟨-, hcl, -⟩ := pairs_of_canonical hc
    simpa [updateCanonical] using hcl

theorem effect_makePayout (p : PayoutRecord PairState) : Effect s₀ (makePayout p s) := by
  refine Effect.record ?_ _ _ fun _ => rfl
  exact (h.payout hj p).plain rfl

end Joined

/-! ### Steps granted a write-queue place -/

section Granted
variable {s₀ s : State} (h : Effect s₀ s)
include h

@[simp] theorem effect_stepIfGranted (n : Nat) : Effect s₀ (stepIfGranted n s) := by
  unfold stepIfGranted
  split
  · next hg =>
    have hj := isJoined_of_granted hg WaitStep.noConfusion WaitStep.noConfusion
    exact (effect_settleWaiting _).2 (effect_performSlotStep ((effect_leaveWaiting ..).2 h) hj n)
  · exact h

@[simp] theorem effect_trySlot (n : Nat) : Effect s₀ (trySlot n s) := by simp [trySlot, h]

@[simp] theorem effect_lineNoAnswer (n : Nat) : Effect s₀ (lineNoAnswer s n) := by
  unfold lineNoAnswer
  (repeat' split) <;> simp [h]

@[simp] theorem effect_lineFails (l : LineState) : Effect s₀ (lineFails l s) :=
  Effect.foldl _ (fun _ _ h => effect_lineNoAnswer h _) _ (h.plain rfl)

@[simp] theorem effect_takeOpening (hj : isJoined s = true) (r : OpenReq) : Effect s₀ (takeOpening r s) := by
  simp only [takeOpening]
  split
  · simp [h]
  · next n _ =>
    split
    · simp [h]
    · have ht : Effect s₀ (accept (nextTag s) [] (putTagSeq (nextTag s) (putSlot n (newSlot (nextTag s) r) s))) :=
        (effect_accept ..).2 ((effect_putSlot h n _).tagSeq hj _)
      split
      · exact effect_trySlot (effect_noAnswer (ht.record _ _ fun _ => rfl) ..) _
      · exact Effect.record ((effect_reserve ..).2 ht) _ _ fun _ => rfl

@[simp] theorem effect_takeRefund (hj : isJoined s = true) (card : CardNo) (g : Tag) (amount : Nat) :
    Effect s₀ (takeRefund card g amount s) := by
  unfold takeRefund
  split
  · exact effect_takeOpening h hj _
  · split
    · simp [h]
    · exact (effect_accept ..).2 ((Effect.tagSeq (((effect_takePlaces ..).2 h).area hj _) hj _).record _ _ fun _ => rfl)

@[simp] theorem effect_putBackoff (home : Station) (b : BackoffLine) : Effect s₀ (putBackoff home b s) := h.backoff home b

@[simp] theorem effect_dqStepIfGranted : Effect s₀ (dqStepIfGranted s) := by
  unfold dqStepIfGranted
  split
  · next hg =>
    have hj := isJoined_of_granted hg WaitStep.noConfusion WaitStep.noConfusion
    exact (effect_settleWaiting _).2 (effect_performDqStep ((effect_leaveWaiting ..).2 h) hj)
  · exact h

@[simp] theorem effect_dqDecide (w : DqStep) : Effect s₀ (dqDecide w s) :=
  effect_dqStepIfGranted ((effect_settleWaiting _).2 (h.plain rfl))

@[simp] theorem effect_dqAnswer (e : DeferredEntry) (b : Body) : Effect s₀ (dqAnswer e b s) := by
  unfold dqAnswer
  split
  · exact h.plain rfl
  all_goals (repeat' split) <;> simp [h]

@[simp] theorem effect_offerAnswer (src : Station) (b : Body) : Effect s₀ (offerAnswer src b s) := by
  unfold offerAnswer
  (repeat' split) <;> simp [h]

/-! ### Frames received -/

@[simp] theorem effect_deliver (src : Station) (b : Body) : Effect s₀ (deliver src b s) := by
  unfold deliver
  split
  · simp [h]
  · simp [h]
  · split
    · exact h.plain rfl
    · simp [h]

@[simp] theorem effect_takenFrame (src dst : Station) (b : Body) : Effect s₀ (takenFrame src dst b s) := by
  unfold takenFrame
  (repeat' split) <;> simp [h]

end Granted

end Sys2Proof.Machine

namespace Sys2Proof.Machine
open Safety

theorem isJoined_of_station {t : State} (ht : t.tp.station ≠ .joined) : isJoined t = false := by simp [isJoined, ht]

/-- Tests in a row that find no refusal find none each. -/
theorem of_orElse_none {α : Type} {a : Option α} {f : Unit → Option α} (h : a.orElse f = none) : a = none ∧ f () = none := by
  cases a with
  | none => exact ⟨rfl, h⟩
  | some x => cases h

/-! ### Takes of the Card Table Unit -/

section Takes
variable {s₀ s : State} (h : Effect s₀ s)
include h

@[simp] theorem effect_decideHold (src : Station) (g : Tag) (card : CardNo) (check : Check) (amount : Nat) (split : Bool) :
    Effect s₀ (decideHold src g card check amount split s) := by
  simp only [decideHold]
  split
  · simp [h]
  · (repeat' split) <;> simp only [effect_answerNow, h]
    next hg =>
    obtain ⟨hi, ha⟩ := grantTests_grant hg
    exact h.made _ _ hi ha

@[simp] theorem effect_decideDrop (src : Station) (g : Tag) (id : HoldId) : Effect s₀ (decideDrop src g id s) := by
  unfold decideDrop
  split
  · split
    · next hn => exact h.freed _ _ fun _ => namedHold_live hn
    · exact h
  · exact h

@[simp] theorem effect_decideInquire (src : Station) (g : Tag) (card : CardNo) (check : Check) (asked : Option Tag) :
    Effect s₀ (decideInquire src g card check asked s) := by
  unfold decideInquire
  (repeat' split) <;> simp [h]

theorem effect_countAtHome (hj : isJoined s = true) (st : Station) (p : HomePos) (amount : Nat) :
    Effect s₀ (countAtHome st p amount s) :=
  h.lines hj _ s.tu.closing fun hc => by
    obtain ⟨hl, hcl, -⟩ := pairs_of_canonical hc
    exact ⟨Table.wf_set _ _ hl, hcl⟩

/-- A capture of no more than is available (R52). -/
theorem effect_applyCapture (hj : isJoined s = true) (src : Station) (g : Tag) (kind : TagKind) (k amount : Nat)
    (ha : amount ≤ available s k) : Effect s₀ (applyCapture src g kind k amount s) := by
  refine effect_countAtHome (Effect.capLog (Effect.card h hj k _ fun hl => ?_) hj _) hj ..
  exact cardFits_less rfl rfl ha hl

/-- A claim of a live hold (R47). -/
theorem effect_applyClaim (hj : isJoined s = true) (src : Station) (g : Tag) (kind : TagKind) (i amount : Nat) (l : LiveHold)
    (hl : Table.rises s₀.ctu.holds = true → (holdAt s i).live = some l) (ha : amount ≤ l.grant) :
    Effect s₀ (applyCapture src g kind l.serial amount (freeEntry i l s)) := by
  refine effect_countAtHome (Effect.capLog (Effect.claimed h hj i amount l _ hl ha ?_ ?_) hj _) hj ..
  · rfl
  · rfl

theorem effect_decideClaim (ho : isOpen s = true) (src : Station) (g : Tag) (card : CardNo) (id : HoldId) (amount : Nat)
    (retry : Bool) : Effect s₀ (decideClaim src g card id amount retry s) := by
  simp only [decideClaim]
  split
  · simp [h]
  · split
    · next l hc =>
      obtain ⟨hl, hs⟩ := claimHold_live hc
      split
      · exact h.freed _ _ fun _ => hl
      · split
        · simp [h]
        · next hh =>
          split
          · simp [h]
          · split
            · simp [h]
            · next ha =>
              have hj := isJoined_of_open ho (Bool.eq_false_iff.2 hh)
              rw [← hs]
              exact Effect.record ((effect_reserve ..).2
                (effect_applyClaim h hj src g .capture _ _ l (fun _ => hl) (Nat.le_of_not_lt ha))) _ _ fun _ => rfl
    · (repeat' split) <;> simp [h]

theorem effect_applyPost (hj : isJoined s = true) (src : Station) (g : Tag) (k amount taken : Nat) (r : Reason)
    (ha : taken ≤ available s k) : Effect s₀ (applyPost src g k amount taken r s) := by
  simp only [applyPost]
  split
  · exact Effect.record ((effect_reserve ..).2 (effect_applyCapture h hj _ _ _ _ _ ha)) _ _ fun _ => rfl
  · refine Effect.record ((effect_reserve ..).2 (Effect.card h hj k _ fun hl => ?_)) _ _ fun _ => rfl
    exact cardFits_same rfl rfl hl

theorem effect_decidePost (ho : isOpen s = true) (src : Station) (g : Tag) (card : CardNo) (check : Check) (amount : Nat) :
    Effect s₀ (decidePost src g card check amount s) := by
  simp only [decidePost]
  split
  · simp [h]
  · split
    · split <;> simp [h]
    · split
      · split
        · simp [h]
        · next hh =>
          simp only [Bool.or_eq_true, not_or, Bool.not_eq_true] at hh
          exact effect_applyPost h (isJoined_of_open ho hh.1) _ _ _ _ _ _ (Nat.zero_le _)
      · split
        · simp [h]
        · next hh =>
          exact effect_applyPost h (isJoined_of_open ho (Bool.eq_false_iff.2 hh)) _ _ _ _ _ _ (postTaking_le ..)

section Rises
variable (hj : isJoined s = true) (hc : s.tp.config.ceiling = s₀.tp.config.ceiling)
include hj hc

/-- A load of an issued card under the ceiling (R53). -/
theorem effect_applyLoad (src : Station) (g : Tag) (k amount : Nat) (hi : isIssued (cardOf s k) = true)
    (ha : loadTests s k amount = none) : Effect s₀ (applyLoad src g k amount s) := by
  refine effect_countAtHome (Effect.card h hj k _ fun hl => ?_) hj ..
  exact cardFits_more rfl rfl hi (hc ▸ ceiling_of_loadTests ha) hl

/-- A return to an issued card under the ceiling (R55). -/
theorem effect_applyReturn (src : Station) (g o : Tag) (k amount : Nat) (hi : isIssued (cardOf s k) = true)
    (ha : returnTests s src o k amount = none) : Effect s₀ (applyReturn src g o k amount s) := by
  refine effect_countAtHome (Effect.capLog (Effect.card h hj k _ fun hl => ?_) hj _) hj ..
  exact cardFits_more rfl rfl hi (hc ▸ ceiling_of_returnTests ha) hl

theorem effect_takeLocalLoad (card : CardNo) (check : Check) (amount : Nat) :
    Effect s₀ (takeLocalLoad card check amount s) := by
  simp only [takeLocalLoad]
  split
  · simp [h]
  · next ht =>
    split
    · simp [h]
    · obtain ⟨hk, ha⟩ := of_orElse_none ht
      have hp : Effect s₀ (takePlaces 1 s) := (effect_takePlaces ..).2 h
      have hi := isIssued_of_cardChecks (cardChecks_of_local hk)
      have hl := effect_applyLoad hp hj hc (ownStation s) (nextTag s) _ _ hi ha
      exact (effect_accept ..).2 (Effect.record (hl.tagSeq hj _) _ _ fun _ => rfl)

theorem effect_takeLocalReturn (card : CardNo) (o : Tag) (amount : Nat) : Effect s₀ (takeLocalReturn card o amount s) := by
  simp only [takeLocalReturn]
  split
  · simp [h]
  · next ht =>
    split
    · simp [h]
    · obtain ⟨hk, ha⟩ := of_orElse_none ht
      have hp : Effect s₀ (takePlaces 1 s) := (effect_takePlaces ..).2 h
      have hi := isIssued_of_cardChecks (cardChecks_of_local hk)
      have hl := effect_applyReturn hp hj hc (ownStation s) (nextTag s) o _ _ hi ha
      exact (effect_accept ..).2 (Effect.record (hl.tagSeq hj _) _ _ fun _ => rfl)

theorem effect_takeHomeOp (op : HomeOp) : Effect s₀ (takeHomeOp op s) := by
  unfold takeHomeOp
  split
  · simp [h]
  · next k r n asked hd =>
    split
    · simp [h]
    · have hp : Effect s₀ (takePlaces 1 s) := (effect_takePlaces ..).2 h
      refine (effect_accept ..).2 (Effect.record (Effect.tagSeq (Effect.card hp hj k r fun hl => ?_) hj _) _ _ fun _ => rfl)
      rw [← hc]
      exact cardFits_of_homeDecision hd hl

end Rises

theorem effect_decideLoad (ho : isOpen s = true) (hc : s.tp.config.ceiling = s₀.tp.config.ceiling) (src : Station) (g : Tag)
    (card : CardNo) (check : Check) (amount : Nat) : Effect s₀ (decideLoad src g card check amount s) := by
  simp only [decideLoad]
  split
  · simp [h]
  · next hk =>
    split
    · simp [h]
    · next hh =>
      split
      · simp [h]
      · split
        · simp [h]
        · next ha =>
          have hj := isJoined_of_open ho (Bool.eq_false_iff.2 hh)
          have hi := isIssued_of_cardChecks (cardChecks_of_sequence hk)
          exact Effect.record ((effect_reserve ..).2 (effect_applyLoad h hj hc _ _ _ _ hi ha)) _ _ fun _ => rfl

theorem effect_decideReturn (ho : isOpen s = true) (hc : s.tp.config.ceiling = s₀.tp.config.ceiling) (src : Station) (g : Tag)
    (card : CardNo) (o : Tag) (amount : Nat) : Effect s₀ (decideReturn src g card o amount s) := by
  simp only [decideReturn]
  split
  · simp [h]
  · next hk =>
    split
    · simp [h]
    · next hh =>
      split
      · simp [h]
      · split
        · simp [h]
        · next ha =>
          have hj := isJoined_of_open ho (Bool.eq_false_iff.2 hh)
          have hi := isIssued_of_cardChecks (cardChecks_of_sequence hk)
          exact Effect.record ((effect_reserve ..).2 (effect_applyReturn h hj hc _ _ _ _ _ hi ha)) _ _ fun _ => rfl

theorem effect_takeLocalRedeem (hj : isJoined s = true) (card : CardNo) (check : Check) (amount : Nat) (split : Bool) :
    Effect s₀ (takeLocalRedeem card check amount split s) := by
  simp only [takeLocalRedeem]
  split
  · simp [h]
  · split
    · simp [h]
    · next hg =>
      split
      · simp [h]
      · obtain ⟨hi, ha⟩ := grantTests_grant hg
        have hp : Effect s₀ (takePlaces 2 s) := (effect_takePlaces ..).2 h
        exact (effect_accept ..).2 (Effect.record (Effect.tagSeq (hp.made _ _ hi ha) hj _) _ _ fun _ => rfl)

theorem effect_takeLocalInquire (hj : isJoined s = true) (card : CardNo) (check : Check) (asked : Option Tag) :
    Effect s₀ (takeLocalInquire card check asked s) := by
  simp only [takeLocalInquire]
  split
  · simp [h]
  · split
    · simp [h]
    · exact (effect_accept ..).2 (Effect.record (Effect.tagSeq ((effect_takePlaces ..).2 h) hj _) _ _ fun _ => rfl)

theorem effect_takeLocalConfirm (hj : isJoined s = true) (g : Tag) (amount : Nat) :
    Effect s₀ (takeLocalConfirm g amount s) := by
  simp only [takeLocalConfirm]
  split
  · simp [h]
  · next i l hl =>
    split
    · simp [h]
    · next ha =>
      have hle : amount ≤ l.grant := Nat.le_of_not_lt (not_or.1 ha).2
      exact (effect_accept ..).2 (Effect.record
        (effect_applyClaim h hj _ _ _ _ _ l (fun hr => localHold_live (h.holds_rises hr) hl) hle) _ _ fun _ => rfl)

theorem effect_takeLocalCancel (g : Tag) : Effect s₀ (takeLocalCancel g s) := by
  unfold takeLocalCancel
  split
  · simp [h]
  · next i l hl =>
    have hf : Effect s₀ (freeEntry i l s) := h.freed _ _ fun hr => localHold_live (h.holds_rises hr) hl
    simp [hf]

theorem effect_takeLocal (hj : isJoined s = true) (hc : s.tp.config.ceiling = s₀.tp.config.ceiling) (r : LocalReq) :
    Effect s₀ (takeLocal r s) := by
  cases r with
  | load => exact effect_takeLocalLoad h hj hc ..
  | redeem => exact effect_takeLocalRedeem h hj ..
  | ret => exact effect_takeLocalReturn h hj hc ..
  | inquire => exact effect_takeLocalInquire h hj ..
  | confirm => exact effect_takeLocalConfirm h hj ..
  | cancel => exact effect_takeLocalCancel h ..

/-! ### Release and store fault -/

@[simp] theorem effect_enteredHold (g : Tag) : Effect s₀ (enteredHold s g) := by
  unfold enteredHold
  split
  · next hl => exact h.placed _ _ 1 fun hr => localHold_live (h.holds_rises hr) hl
  · exact h

@[simp] theorem effect_releasePlaced (n : Notice) : Effect s₀ (releasePlaced n s) := by
  unfold releasePlaced
  split <;> simp [h]

@[simp] theorem effect_releaseSlotFrame (n : Nat) (g : Tag) (d : Station) (b : Body) :
    Effect s₀ (releaseSlotFrame n g d b s) := by
  simp only [releaseSlotFrame]
  (repeat' split) <;> simp [h]

@[simp] theorem effect_release (d : Dependent) : Effect s₀ (release d s) := by
  unfold release
  cases d with
  | configured clamped =>
    exact (effect_accept ..).2 (h.leaves rfl (isJoined_of_station StationState.noConfusion))
  | _ => simp [h]

@[simp] theorem effect_releaseAll (ds : List Dependent) : Effect s₀ (releaseAll ds s) :=
  Effect.foldl _ (fun _ _ h => effect_release h _) ds h

@[simp] theorem effect_faultDependent (d : Dependent) : Effect s₀ (faultDependent s d) := by
  unfold faultDependent
  (repeat' split) <;> simp [h]

end Takes
end Sys2Proof.Machine

namespace Sys2Proof.Machine
open Safety

/-! ### The store fault (R62, R85, R103, R129, R130) -/

/-- A rising table lists each index once, none below its bound. -/
theorem Table.nodup_of_risesFrom {α : Type} {n : Nat} {t : Table α} (h : Table.risesFrom n t = true) :
    (t.map (·.1)).Nodup ∧ ∀ e ∈ t, n ≤ e.1 := by
  induction t generalizing n with
  | nil => simp
  | cons e t ih =>
    simp only [Table.risesFrom, Bool.and_eq_true, decide_eq_true_eq] at h
    obtain ⟨hd, hb⟩ := ih h.2
    refine ⟨List.nodup_cons.2 ⟨fun hm => ?_, hd⟩, fun x hx => ?_⟩
    · obtain ⟨x, hx, he⟩ := List.mem_map.1 hm
      have hle := hb x hx
      simp only at he
      omega
    · rcases List.mem_cons.1 hx with rfl | hx
      · exact h.1
      · have := hb x hx
        omega

theorem liveHolds_indices_sublist (t : Table HoldEntry) :
    ((t.filterMap fun e => e.2.live.map fun h => (e.1, h)).map (·.1)).Sublist (t.map (·.1)) := by
  induction t with
  | nil => exact .slnil
  | cons e t ih =>
    cases hl : e.2.live with
    | none => simpa [List.filterMap_cons, hl] using ih.cons e.1
    | some l => simpa [List.filterMap_cons, hl] using ih.cons_cons e.1

/-- A rising hold table has each live local hold at an index of its own. -/
theorem localHolds_nodup {s : State} (hr : Table.rises s.ctu.holds = true) : ((localHolds s).map (·.1)).Nodup :=
  (Table.nodup_of_risesFrom hr).1.sublist
    ((List.filter_sublist.map _).trans (liveHolds_indices_sublist s.ctu.holds))

theorem holdAt_freeEntry_of_ne {s : State} {i j : Nat} {l : LiveHold} (hr : Table.rises s.ctu.holds = true) (hj : j ≠ i) :
    holdAt (freeEntry i l s) j = holdAt s j := Table.get_set_of_ne _ _ _ _ _ hr hj

theorem faultHold_holds (s : State) (e : Nat × LiveHold) : (faultHold s e).ctu.holds = (freeEntry e.1 e.2 s).ctu.holds := by
  unfold faultHold
  simp only
  split <;> rfl

section Fault
variable {s₀ s : State} (h : Effect s₀ s)
include h

theorem effect_faultHold (e : Nat × LiveHold)
    (hl : Table.rises s₀.ctu.holds = true → (holdAt s e.1).live = some e.2) : Effect s₀ (faultHold s e) := by
  have hf : Effect s₀ (freeEntry e.1 e.2 s) := h.freed _ _ hl
  simp only [faultHold]
  split
  · exact hf
  · exact hf.plain rfl

/-- The live local holds end one after the other, each still live when its turn comes (R62). -/
theorem effect_faultHolds (hs : List (Nat × LiveHold))
    (hl : Table.rises s₀.ctu.holds = true → (hs.map (·.1)).Nodup ∧ ∀ e ∈ hs, (holdAt s e.1).live = some e.2) :
    Effect s₀ (hs.foldl faultHold s) := by
  induction hs generalizing s with
  | nil => exact h
  | cons e hs ih =>
    refine ih (effect_faultHold h e fun hr => (hl hr).2 e (List.mem_cons_self ..)) fun hr => ?_
    obtain ⟨hd, hm⟩ := hl hr
    obtain ⟨hne, hd⟩ := List.nodup_cons.1 hd
    refine ⟨hd, fun x hx => ?_⟩
    have hx1 : x.1 ≠ e.1 := fun he => hne (List.mem_map.2 ⟨x, hx, he⟩)
    rw [holdAt, faultHold_holds]
    exact (congrArg HoldEntry.live (holdAt_freeEntry_of_ne (h.holds_rises hr) hx1)).trans (hm x (List.mem_cons_of_mem _ hx))

theorem effect_faultLocalHolds : Effect s₀ ((localHolds s).foldl faultHold s) :=
  effect_faultHolds h _ fun hr => ⟨localHolds_nodup (h.holds_rises hr), fun _ he =>
    holdAt_of_mem_liveHolds (h.holds_rises hr) (List.mem_of_mem_filter he)⟩

@[simp] theorem effect_faultSlot (n : Nat) : Effect s₀ (faultSlot s n) := by
  unfold faultSlot
  (repeat' split) <;> simp [h]

theorem effect_faultSlots : Effect s₀ (faultSlots s) := by
  have hw : Effect s₀ (enterWaiting (dropGranted s)) := effect_enterDues ((effect_dropGranted _).2 h) _
  exact (effect_withdraw ..).2 (Effect.foldl _ (fun _ _ h => effect_faultSlot h _) _ hw)

theorem effect_faultTp : Effect s₀ (faultTp s) := by
  have hh : Effect s₀ (setEvent .store { s with tp := { s.tp with station := .halted } }) :=
    h.leaves rfl (isJoined_of_station StationState.noConfusion)
  simp only [faultTp]
  split <;> simp [hh]

theorem effect_storeFaulted : Effect s₀ (storeFaulted s) := by
  have hd := Effect.foldl faultDependent (fun _ _ h => effect_faultDependent h _) (s.ps.queue.flatMap (·.deps)) h.torn
  exact effect_faultTp ((effect_faultTu _).2 ((effect_faultDq _).2 (effect_faultSlots (effect_faultLocalHolds hd))))

end Fault

/-! ### Routing of CONFIRM and CANCEL (R67) -/

section Routing
variable {s₀ s : State} (h : Effect s₀ s)
include h

@[simp] theorem effect_routeConfirm (g : Tag) (amount : Nat) : Effect s₀ (routeConfirm g amount s) := by
  unfold routeConfirm
  (repeat' split) <;> simp [h]

@[simp] theorem effect_routeCancel (g : Tag) : Effect s₀ (routeCancel g s) := by
  unfold routeCancel
  (repeat' split) <;> simp [h]

end Routing
end Sys2Proof.Machine

/-! ## What each command does -/
namespace Sys2Proof.Machine
open Safety

/-- A stop or restart: every block at its reset value, the store untouched but for a torn record, and no record queued that was
not there before (R122, R128, R132). -/
structure Restarted (s t : State) : Prop where
  ctu : t.ctu = blankCtu
  su : t.su = blankSu
  dq : t.dq = blankDq
  tu : t.tu = blankTu
  store : t.ps.store = { s.ps.store with torn := t.ps.store.torn }
  queue : ∀ r ∈ t.ps.queue, ∃ r' ∈ s.ps.queue, r.updates = r'.updates

/-- What a command does to the tables: an effect of the running blocks; JOIN; a stop or restart; the commit of the head record,
with the release of its dependents, or with the start-up that waited for it; or the reload that ends a start-up. -/
inductive ExecKind (c : Instr) (s t : State) : Prop
  | effect (h : Effect s t)
  | joins (hs : s.tp.station = .configured) (v : view { t with tp := s.tp } = view s)
  | restart (hr : restarts c = true ∨ s.tp.startup ≠ .none) (h : Restarted s t)
  | commit (r : PostingRecord) (rest : List PostingRecord) (hq : s.ps.queue = r :: rest) (h : Effect (commitHead r rest s) t)
  | commitRestart (r : PostingRecord) (rest : List PostingRecord) (hq : s.ps.queue = r :: rest)
      (hs : s.tp.startup = .finishing) (h : Restarted (commitHead r rest s) t)
  | reload (hs : s.tp.startup = .reloading) (h : t = reloaded s)

theorem kind_same {c : Instr} {s : State} : nextSatisfies (.next s) (ExecKind c s) :=
  nextSatisfies_next.2 (.effect .refl)

theorem kind_effect {c : Instr} {s t : State} (h : Effect s t) : nextSatisfies (.next t) (ExecKind c s) :=
  nextSatisfies_next.2 (.effect h)

/-- A step that stands under a condition, and hands the queue on. -/
theorem kind_ite {c : Instr} {s u : State} {b : Prop} [Decidable b] (h : b → Effect s u) :
    nextSatisfies (if b then .next (settleWaiting u) else .next s) (ExecKind c s) := by
  split
  · next hb => exact kind_effect ((effect_settleWaiting _).2 (h hb))
  · exact kind_same

/-! ### Stops and restarts -/

theorem restarted_startUpSteps {s u : State} (cause : Cause) (h : u.ps.store = { s.ps.store with torn := u.ps.store.torn }) :
    Restarted s (startUpSteps cause u) :=
  ⟨rfl, rfl, rfl, rfl, h, by simp [startUpSteps, clearQueue]⟩

theorem restarted_stopped {s u : State} (h : u.ps.store = s.ps.store) : Restarted s (stopped u) :=
  ⟨rfl, rfl, rfl, rfl, by simp [stopped, clearQueue, clearBlocks, h], by simp [stopped, clearQueue]⟩

theorem restarted_beginReset (s : State) : Restarted s (beginReset s) := by
  simp only [beginReset]
  split
  · exact restarted_startUpSteps _ rfl
  · next r rest hq =>
    refine ⟨rfl, rfl, rfl, rfl, rfl, fun x hx => ⟨r, ?_, ?_⟩⟩
    · simp [hq]
    · cases List.mem_singleton.1 hx
      rfl

/-! ### Till commands -/

section Till
variable {s : State} {c : Instr} {code seq : Byte} {work : State → State}

/-- A command write has its work's effect (R10, R168). -/
theorem intake_kind (hw : ∀ t, Effect s t → Effect s (work t)) :
    nextSatisfies (intake code seq work s) (ExecKind c s) := by
  unfold intake
  split
  · exact kind_same
  · split
    · exact kind_effect (Effect.refl.plain rfl)
    · exact kind_effect ((effect_settleWaiting _).2 (hw _ ((effect_takeCommand ..).2 .refl)))

/-- A command its station state refuses changes nothing the view shows (R169). -/
theorem effect_tested {s₀ t : State} (test : State → Option Reason) (h : Effect s₀ t) (hw : Effect s₀ (work t)) :
    Effect s₀ (tested test work t) := by
  unfold tested
  split
  · exact (effect_refuse ..).2 h
  · exact hw

theorem view_joined (t : State) : view { joined t with tp := t.tp } = view t := by
  unfold joined resumeRound
  (repeat' split) <;> rfl

/-- JOIN changes the station state alone, in CONFIGURED (R169, R173). -/
theorem execJoin_kind : nextSatisfies (execJoin seq s) (ExecKind c s) := by
  unfold execJoin intake
  split
  · exact kind_same
  · split
    · exact kind_effect (Effect.refl.plain rfl)
    · refine nextSatisfies_next.2 ?_
      unfold tested
      split
      · refine .effect ?_
        exact Effect.refl.plain rfl
      · next ht =>
        refine .joins ?_ (view_joined (takeCommand 0x02 seq s))
        unfold joinTest at ht
        split at ht
        · assumption
        all_goals cases ht

end Till

/-! ### Takes of the Card Table Unit (R37) -/

section Takes
variable {c : Instr} {s : State}

@[simp] theorem announce_tp (src : Station) (g : Tag) : (announce src g s).tp = s.tp := by
  unfold announce
  split <;> rfl

theorem isOpen_announce (src : Station) (g : Tag) : isOpen (announce src g s) = isOpen s := by
  simp only [isOpen, isUp, isRunning, announce_tp]

theorem effect_popLine_self : Effect s (popLine s) := (effect_popLine _).2 .refl

theorem effect_announce_self (src : Station) (g : Tag) : Effect s (announce src g (popLine s)) :=
  (effect_announce ..).2 effect_popLine_self

theorem isOpen_popLine (h : takesLine s = true) : isOpen (popLine s) = true := isOpen_of_takesLine (s := s) h

theorem isJoined_popLocal (h : takesLocal s = true) : isJoined (popLocal s) = true := isJoined_of_takesLocal (s := s) h

theorem isJoined_leaveWaiting {w : WaitStep} (h : isGranted s w = true) (hw : w ≠ .configure) (hw' : w ≠ .ctuLine) :
    isJoined (leaveWaiting w s) = true := isJoined_of_granted (s := s) h hw hw'

theorem isOpen_announced (h : takesLine s = true) (src : Station) (g : Tag) : isOpen (announce src g (popLine s)) = true :=
  (isOpen_announce ..).trans (isOpen_popLine h)

theorem ceiling_announced (src : Station) (g : Tag) :
    (announce src g (popLine s)).tp.config.ceiling = s.tp.config.ceiling := by rw [announce_tp]; rfl

theorem execHold_kind : nextSatisfies (execHold s) (ExecKind c s) := by
  unfold execHold
  split
  · exact kind_ite fun _ => effect_decideHold effect_popLine_self ..
  · exact kind_same

theorem execClaim_kind : nextSatisfies (execClaim s) (ExecKind c s) := by
  unfold execClaim
  split
  · refine kind_ite fun ht => ?_
    split
    · exact effect_decideClaim effect_popLine_self (isOpen_popLine ht) ..
    · exact effect_decideClaim (effect_announce_self ..) (isOpen_announced ht ..) ..
  · exact kind_same

theorem execDrop_kind : nextSatisfies (execDrop s) (ExecKind c s) := by
  unfold execDrop
  split
  · exact kind_ite fun _ => effect_decideDrop effect_popLine_self ..
  · exact kind_same

theorem execPost_kind : nextSatisfies (execPost s) (ExecKind c s) := by
  unfold execPost
  split
  · exact kind_ite fun ht => effect_decidePost (effect_announce_self ..) (isOpen_announced ht ..) ..
  · exact kind_same

theorem execLoadFrame_kind : nextSatisfies (execLoadFrame s) (ExecKind c s) := by
  unfold execLoadFrame
  split
  · exact kind_ite fun ht =>
      effect_decideLoad (effect_announce_self ..) (isOpen_announced ht ..) (ceiling_announced ..) ..
  · exact kind_same

theorem execReturnFrame_kind : nextSatisfies (execReturnFrame s) (ExecKind c s) := by
  unfold execReturnFrame
  split
  · exact kind_ite fun ht =>
      effect_decideReturn (effect_announce_self ..) (isOpen_announced ht ..) (ceiling_announced ..) ..
  · exact kind_same

theorem execInquireFrame_kind : nextSatisfies (execInquireFrame s) (ExecKind c s) := by
  unfold execInquireFrame
  split
  · exact kind_ite fun _ => effect_decideInquire effect_popLine_self ..
  · exact kind_same

theorem execHomeOperationTake_kind : nextSatisfies (execHomeOperationTake s) (ExecKind c s) := by
  unfold execHomeOperationTake
  split
  · exact kind_ite fun ht => effect_takeHomeOp ((effect_popLocal _).2 .refl) (isJoined_popLocal ht) rfl _
  · exact kind_same

theorem execLocalRequestTake_kind : nextSatisfies (execLocalRequestTake s) (ExecKind c s) := by
  unfold execLocalRequestTake
  split
  · exact kind_ite fun ht => effect_takeLocal ((effect_popLocal _).2 .refl) (isJoined_popLocal ht) rfl _
  · exact kind_same

theorem execHoldExpiry_kind (entry : Fin 256) : nextSatisfies (execHoldExpiry entry s) (ExecKind c s) := by
  unfold execHoldExpiry
  split
  · next l hl =>
    have hf : Effect s (freeEntry entry.val l s) := Effect.refl.freed _ _ fun _ => hl
    split
    · split
      · exact kind_effect ((effect_settleWaiting _).2 hf)
      · exact kind_effect ((effect_settleWaiting _).2 ((effect_secondNotice ..).2 hf))
    · exact kind_same
  · exact kind_same

end Takes

/-! ### Slots (R67 to R84) -/

section Slots
variable {c : Instr} {s : State}

theorem effect_leaveWaiting_self (w : WaitStep) : Effect s (leaveWaiting w s) := (effect_leaveWaiting ..).2 .refl

theorem execSlotOpening_kind : nextSatisfies (execSlotOpening s) (ExecKind c s) := by
  unfold execSlotOpening
  split
  · exact kind_ite fun hg => effect_takeOpening (effect_leaveWaiting_self _)
      (isJoined_leaveWaiting hg WaitStep.noConfusion WaitStep.noConfusion) _
  · exact kind_same

theorem execReplyWindowExpiry_kind (n : Fin 32) : nextSatisfies (execReplyWindowExpiry n s) (ExecKind c s) := by
  unfold execReplyWindowExpiry
  split
  · exact kind_ite fun _ => effect_trySlot (effect_noAnswer .refl ..) _
  · exact kind_same

theorem execSlotHoldExpiry_kind (n : Fin 32) : nextSatisfies (execSlotHoldExpiry n s) (ExecKind c s) := by
  unfold execSlotHoldExpiry
  split
  · exact kind_ite fun _ => effect_releaseHeld .refl ..
  · exact kind_same

theorem execOfflineDecision_kind (n : Fin 32) : nextSatisfies (execOfflineDecision n s) (ExecKind c s) := by
  unfold execOfflineDecision
  split
  · exact kind_effect (effect_stepIfGranted .refl _)
  · exact kind_same

theorem execSlotDeferredEntry_kind (n : Fin 32) : nextSatisfies (execSlotDeferredEntry n s) (ExecKind c s) := by
  unfold execSlotDeferredEntry
  split
  · exact kind_effect (effect_stepIfGranted .refl _)
  · exact kind_effect (effect_stepIfGranted .refl _)
  · exact kind_same

theorem execActorFiling_kind (n : Fin 32) : nextSatisfies (execActorFiling n s) (ExecKind c s) := by
  unfold execActorFiling
  split
  · exact kind_effect (effect_stepIfGranted .refl _)
  · exact kind_same

theorem execNoticeEntry_kind : nextSatisfies (execNoticeEntry s) (ExecKind c s) := by
  unfold execNoticeEntry
  split
  · exact kind_ite fun _ => effect_enterDue .refl _
  · exact kind_same

/-! ### Deferred Queue (R91 to R101) -/

theorem execForwarderChoice_kind : nextSatisfies (execForwarderChoice s) (ExecKind c s) := by
  unfold execForwarderChoice
  split
  · exact kind_ite fun hg => effect_forward (effect_leaveWaiting_self _)
      (isJoined_leaveWaiting hg WaitStep.noConfusion WaitStep.noConfusion) _
  · exact kind_same

theorem execDqWindowExpiry_kind : nextSatisfies (execDqWindowExpiry s) (ExecKind c s) := by
  unfold execDqWindowExpiry
  split
  · exact kind_ite fun _ => effect_dqDecide (effect_putBackoff .refl ..) _
  · exact kind_same

theorem execDqReturnTake_kind : nextSatisfies (execDqReturnTake s) (ExecKind c s) := by
  unfold execDqReturnTake
  split
  · exact kind_ite fun hg => effect_takeRefund (effect_leaveWaiting_self _)
      (isJoined_leaveWaiting hg WaitStep.noConfusion WaitStep.noConfusion) ..
  · exact kind_same

/-! ### Tally Unit (R143 to R151) -/

theorem execRoundOpening_kind : nextSatisfies (execRoundOpening s) (ExecKind c s) := by
  unfold execRoundOpening
  split
  · exact kind_ite fun hg => effect_openRound (effect_leaveWaiting_self _)
      (isJoined_leaveWaiting hg WaitStep.noConfusion WaitStep.noConfusion) _
  · exact kind_same

theorem execTallyOpenEntry_kind : nextSatisfies (execTallyOpenEntry s) (ExecKind c s) := by
  unfold execTallyOpenEntry
  split
  · exact kind_ite fun _ => (effect_enqueue ..).2 (Effect.refl.plain rfl)
  · exact kind_same

theorem execTallyStep_kind : nextSatisfies (execTallyStep s) (ExecKind c s) := by
  unfold execTallyStep
  split
  · exact kind_ite fun _ => effect_tallyTo (effect_leaveWaiting_self _) ..
  · exact kind_same

theorem execReceptionStep_kind : nextSatisfies (execReceptionStep s) (ExecKind c s) := by
  unfold execReceptionStep
  split
  · exact kind_ite fun _ => effect_receive (effect_leaveWaiting_self _) _
  · exact kind_same

theorem execComputationCompletion_kind : nextSatisfies (execComputationCompletion s) (ExecKind c s) := by
  unfold execComputationCompletion
  split
  · exact kind_ite fun _ => Effect.refl.plain rfl
  · exact kind_same

theorem execPayoutRecord_kind : nextSatisfies (execPayoutRecord s) (ExecKind c s) := by
  unfold execPayoutRecord
  split
  · exact kind_ite fun hg => effect_makePayout (effect_leaveWaiting_self _)
      (isJoined_leaveWaiting hg WaitStep.noConfusion WaitStep.noConfusion) _
  · exact kind_same

theorem execCutShortStep_kind : nextSatisfies (execCutShortStep s) (ExecKind c s) := by
  unfold execCutShortStep
  split
  · exact kind_ite fun _ => effect_cutShort (effect_leaveWaiting_self _)
  · exact kind_same

/-! ### Line Controller (R105 to R121) -/

/-- A complete frame has the effect of what takes it (R117 to R121). -/
theorem completeFrame_kind (src dst : Station) (b : Option Body) :
    nextSatisfies (completeFrame src dst b s) (ExecKind c s) := by
  have hf : Effect s (frameEnded s) := (effect_frameEnded _).2 .refl
  unfold completeFrame
  split
  · split
    · split
      · exact kind_effect hf
      · exact kind_effect ((effect_settleWaiting _).2 (effect_takenFrame hf ..))
    · exact kind_effect hf
  · exact kind_same

theorem execFrameStart_kind : nextSatisfies (execFrameStart s) (ExecKind c s) := by
  unfold execFrameStart
  (repeat' split) <;> exact kind_effect (Effect.refl.plain rfl)

theorem execArbitrationLost_kind : nextSatisfies (execArbitrationLost s) (ExecKind c s) := by
  unfold execArbitrationLost
  split
  · exact kind_effect ((effect_stopSending _).2 ((effect_mapHead ..).2 .refl))
  · exact kind_same

theorem execBodyClash_kind : nextSatisfies (execBodyClash s) (ExecKind c s) := by
  unfold execBodyClash
  split
  · have h (f : TxFrame → TxFrame) (k : TxClass) : Effect s (putReceiver .searching (stopSending (mapHead f k s))) :=
      (effect_putReceiver ..).2 ((effect_stopSending _).2 ((effect_mapHead ..).2 .refl))
    simp only
    split
    · exact kind_effect ((effect_settleWaiting _).2 (effect_lineFails (h ..) _))
    · exact kind_effect (h ..)
  · exact kind_same

theorem execFrameSentWhole_kind : nextSatisfies (execFrameSentWhole s) (ExecKind c s) := by
  unfold execFrameSentWhole
  split
  · exact kind_effect (Effect.refl.plain rfl)
  · exact kind_same

end Slots

/-! ### Posting Store, start-up and supply (R125, R128 to R132, R138, R175) -/

section Store
variable {c : Instr} {s : State}

theorem execWriteCompletion_kind : nextSatisfies (execWriteCompletion s) (ExecKind c s) := by
  unfold execWriteCompletion
  split
  · next r rest hq =>
    split
    · simp only
      split
      · next hs => exact nextSatisfies_next.2 (.commitRestart r rest hq hs (restarted_startUpSteps _ rfl))
      · exact nextSatisfies_next.2 (.commit r rest hq
          (effect_tryConfigure ((effect_settleWaiting _).2 (effect_releaseAll .refl _))))
    · exact kind_same
  · exact kind_same

theorem execStoreFault_kind : nextSatisfies (execStoreFault s) (ExecKind c s) := by
  unfold execStoreFault
  split
  · split
    · split
      · next hs => exact nextSatisfies_next.2 (.restart (.inr (by simp [hs])) (restarted_startUpSteps _ rfl))
      · exact kind_effect (effect_storeFaulted .refl)
    · exact kind_same
  · exact kind_same

theorem execReset_kind (seq : Byte) : nextSatisfies (execReset seq s) (ExecKind (.reset seq) s) := by
  unfold execReset
  split
  · exact nextSatisfies_next.2 (.restart (.inl rfl) (restarted_beginReset s))
  · exact kind_same

theorem execReload_kind : nextSatisfies (execReload s) (ExecKind c s) := by
  unfold execReload
  split
  · next h => exact nextSatisfies_next.2 (.reload h.2 rfl)
  · exact kind_same

theorem isJoined_of_not_running {t : State} (h : isRunning t = false) : isJoined t = false := by simp [isJoined, isUp, h]

/-- Power applied with the reset pin held: the part does not run yet (R175). -/
theorem execPowerUp_kind : nextSatisfies (execPowerUp s) (ExecKind .powerUp s) := by
  unfold execPowerUp
  split
  · exact kind_same
  · simp only
    split
    · next hh =>
      refine kind_effect (Effect.refl.leaves rfl (isJoined_of_not_running ?_))
      simp [isRunning, hh]
    · exact nextSatisfies_next.2 (.restart (.inl rfl) (restarted_startUpSteps _ rfl))

theorem execPowerFailure_kind : nextSatisfies (execPowerFailure s) (ExecKind .powerFailure s) := by
  unfold execPowerFailure
  split
  · exact nextSatisfies_next.2 (.restart (.inl rfl) (restarted_stopped rfl))
  · exact kind_same

theorem execResetInputAssert_kind : nextSatisfies (execResetInputAssert s) (ExecKind .resetInputAssert s) := by
  unfold execResetInputAssert
  split
  · exact kind_same
  · exact nextSatisfies_next.2 (.restart (.inl rfl) (restarted_stopped rfl))

/-- The reset pin released without power: the part does not run yet (R175). -/
theorem execResetInputRelease_kind : nextSatisfies (execResetInputRelease s) (ExecKind .resetInputRelease s) := by
  unfold execResetInputRelease
  split
  · simp only
    split
    · exact nextSatisfies_next.2 (.restart (.inl rfl) (restarted_startUpSteps _ rfl))
    · next hp =>
      refine kind_effect (Effect.refl.leaves rfl (isJoined_of_not_running ?_))
      simp [isRunning, hp]
  · exact kind_same

end Store

/-! ### Every command -/

/-- Every command does one of the things of `ExecKind`. -/
theorem exec_kind (c : Instr) (s : State) : nextSatisfies (exec c s) (ExecKind c s) := by
  cases c with
  | configure => exact intake_kind fun _ h => effect_tested _ h (effect_takeConfigure h _)
  | join => exact execJoin_kind
  | sell => exact intake_kind fun _ h => effect_tested _ h ((effect_handTo ..).2 h)
  | close | freeze | unfreeze => exact intake_kind fun _ h => effect_tested _ h ((effect_routeHomeOp ..).2 h)
  | load | redeem | returnCard | inquire => exact intake_kind fun _ h => effect_tested _ h ((effect_routeCard ..).2 h)
  | confirm => exact intake_kind fun _ h => effect_tested _ h (effect_routeConfirm h ..)
  | cancel => exact intake_kind fun _ h => effect_tested _ h (effect_routeCancel h _)
  | settle => exact intake_kind fun _ h => effect_tested _ h ((effect_takeSettle ..).2 h)
  | recount => exact intake_kind fun _ h => effect_tested _ h ((effect_takeRecount _).2 h)
  | takeNotice => exact intake_kind fun _ h => effect_takeNotice h
  | clearEvents => exact intake_kind fun _ h => (effect_clearEvents ..).2 h
  | setMask => exact intake_kind fun _ h => (effect_setMask ..).2 h
  | status | readEvents => exact intake_kind fun _ h => (effect_accept ..).2 h
  | readCard | readCaplog | readDeferred | readPayout =>
    simp only [exec_readCard, exec_readCaplog, exec_readDeferred, exec_readPayout]
    refine intake_kind fun _ h => ?_
    (repeat' split) <;> simp [h]
  | reset seq => exact execReset_kind seq
  | malformed =>
    simp only [exec, execMalformed]
    split
    · exact kind_effect (Effect.refl.plain rfl)
    · exact kind_same
  | powerUp => exact execPowerUp_kind
  | powerFailure => exact execPowerFailure_kind
  | resetInputAssert => exact execResetInputAssert_kind
  | resetInputRelease => exact execResetInputRelease_kind
  | reload => exact execReload_kind
  | homeOperationTake => exact execHomeOperationTake_kind
  | localRequestTake => exact execLocalRequestTake_kind
  | hold => exact execHold_kind
  | claim => exact execClaim_kind
  | drop => exact execDrop_kind
  | post => exact execPost_kind
  | loadFrame => exact execLoadFrame_kind
  | returnFrame => exact execReturnFrame_kind
  | inquireFrame => exact execInquireFrame_kind
  | holdExpiry e => exact execHoldExpiry_kind e
  | slotOpening => exact execSlotOpening_kind
  | replyWindowExpiry n => exact execReplyWindowExpiry_kind n
  | slotHoldExpiry n => exact execSlotHoldExpiry_kind n
  | offlineDecision n => exact execOfflineDecision_kind n
  | slotDeferredEntry n => exact execSlotDeferredEntry_kind n
  | actorFiling n => exact execActorFiling_kind n
  | noticeEntry => exact execNoticeEntry_kind
  | dqReturnTake => exact execDqReturnTake_kind
  | dqWindowExpiry => exact execDqWindowExpiry_kind
  | backoffExpiry home => exact kind_ite fun _ => effect_putBackoff .refl ..
  | forwarderChoice => exact execForwarderChoice_kind
  | dqPendingStep => exact kind_effect (effect_dqStepIfGranted .refl)
  | stall | holdOk | holdNo | claimOk | claimNo | postOk | postNo | loadOk | loadNo | returnOk | returnNo | balance
  | inquireNo | tallyOpen | tally | receiveQueueEntry => exact completeFrame_kind ..
  | bodyLengthDiscard | startSymbol =>
    simp only [exec, execBodyLengthDiscard, execStartSymbol]
    split
    · exact kind_effect ((effect_putReceiver ..).2 .refl)
    · exact kind_same
  | frameStart => exact execFrameStart_kind
  | arbitrationLost => exact execArbitrationLost_kind
  | bodyClash => exact execBodyClash_kind
  | frameSentWhole => exact execFrameSentWhole_kind
  | idleGap => exact kind_ite fun _ => Effect.refl.plain rfl
  | stuckTimerExpiry => exact kind_ite fun _ => effect_lineFails .refl _
  | quietTimerExpiry => exact kind_ite fun _ => (effect_startSending _).2 (Effect.refl.plain rfl)
  | tallyTimerExpiry => exact kind_ite fun _ => (effect_beginComputation _).2 (Effect.refl.plain rfl)
  | computationCompletion => exact execComputationCompletion_kind
  | roundOpening => exact execRoundOpening_kind
  | tallyOpenEntry => exact execTallyOpenEntry_kind
  | tallyStep => exact execTallyStep_kind
  | receptionStep => exact execReceptionStep_kind
  | cutShortStep => exact execCutShortStep_kind
  | payoutRecord => exact execPayoutRecord_kind
  | storeFault => exact execStoreFault_kind
  | writeCompletion => exact execWriteCompletion_kind

theorem execKind_of_next {c : Instr} {s t : State} (h : exec c s = .next t) : ExecKind c s t := by
  obtain ⟨u, hu, hk⟩ := exec_kind c s
  cases h.symm.trans hu
  exact hk

end Sys2Proof.Machine

/-! ## What each step keeps -/
namespace Sys2Proof.Machine
open Safety

/-- A step is a command run on a state with the same tables, a period of the reference clock, or nothing. -/
theorem step_cases {s t : State} (h : step s = .next t) :
    (∃ c u, view u = view s ∧ u.tp = s.tp ∧ ExecKind c u t) ∨ t = clock s ∨ t = s := by
  unfold step at h
  split at h
  · refine .inl ⟨_, _, ?_, ?_, execKind_of_next h⟩ <;> rfl
  · unfold idle at h
    split at h
    · split at h
      · cases h; exact .inr (.inl rfl)
      · cases h; exact .inr (.inr rfl)
    · exact .inl ⟨_, s, rfl, rfl, execKind_of_next h⟩
    · refine .inl ⟨_, _, ?_, ?_, execKind_of_next h⟩ <;> rfl

/-- A law of the tables that each kind of change keeps. -/
structure KeptByKinds (P : State → Prop) : Prop where
  same : ∀ {s t : State}, view { t with tp := s.tp } = view s → P s → P t
  effect : ∀ {s t : State}, Effect s t → P s → P t
  restart : ∀ {s t : State}, Restarted s t → P s → P t
  commit : ∀ {r rest} {s : State}, s.ps.queue = r :: rest → P s → P (commitHead r rest s)
  reload : ∀ {s : State}, P s → P (reloaded s)
  tick : ∀ {s : State}, P s → P (tick s)

/-- Every command keeps such a law. -/
theorem KeptByKinds.exec {P : State → Prop} (hP : KeptByKinds P) {c : Instr} {s t : State} (h : ExecKind c s t) (hs : P s) :
    P t := by
  cases h with
  | effect h => exact hP.effect h hs
  | joins _ v => exact hP.same v hs
  | restart _ h => exact hP.restart h hs
  | commit r rest hq h => exact hP.effect h (hP.commit hq hs)
  | commitRestart r rest hq _ h => exact hP.restart h (hP.commit hq hs)
  | reload _ h => exact h ▸ hP.reload hs

/-- Every step keeps such a law. -/
theorem KeptByKinds.step {P : State → Prop} (hP : KeptByKinds P) {s t : State} (hs : P s) (h : step s = .next t) : P t := by
  rcases step_cases h with ⟨c, u, hv, hu, hk⟩ | rfl | rfl
  · have hw : view { u with tp := s.tp } = view s := by rw [← hu]; exact hv
    exact hP.exec hk (hP.same hw hs)
  · unfold clock
    split
    · exact hP.same rfl hs
    · exact hP.tick (hP.same rfl hs)
  · exact hs

/-- What two states with the same view agree in. -/
theorem fields_of_view {s t : State} (v : view { t with tp := s.tp } = view s) :
    t.ctu.cards = s.ctu.cards ∧ t.ctu.held = s.ctu.held ∧ t.ctu.holds = s.ctu.holds ∧ t.ctu.capLog = s.ctu.capLog ∧
      t.ctu.liability = s.ctu.liability ∧ t.su.slots = s.su.slots ∧ t.su.tagSeq = s.su.tagSeq ∧ t.dq.area = s.dq.area ∧
      t.dq.backoff = s.dq.backoff ∧ t.tu.live = s.tu.live ∧ t.tu.closing = s.tu.closing ∧ t.tu.marks = s.tu.marks ∧
      t.tu.figures = s.tu.figures ∧ t.tu.payout = s.tu.payout ∧ t.ps.store = s.ps.store ∧
      t.ps.queue.map (·.updates) = s.ps.queue.map (·.updates) := by
  simp only [view, View.mk.injEq] at v
  obtain ⟨h1, h2, h3, h4, h5, h6, h7, h8, h9, h10, h11, h12, h13, h14, h15, h16, -⟩ := v
  exact ⟨h1, h2, h3, h4, h5, h6, h7, h8, h9, h10, h11, h12, h13, h14, h15, h16⟩

/-- The same, of two states that agree in being JOINED. -/
theorem view_of_same {s t : State} (v : view t = view s) : view { t with tp := s.tp } = view s := by
  simp only [view, View.mk.injEq] at v ⊢
  obtain ⟨h1, h2, h3, h4, h5, h6, h7, h8, h9, h10, h11, h12, h13, h14, h15, h16, -⟩ := v
  exact ⟨h1, h2, h3, h4, h5, h6, h7, h8, h9, h10, h11, h12, h13, h14, h15, h16, rfl⟩

/-! ### Tables that are mapped or filtered -/

section Tables
variable {α β : Type}

@[simp] theorem Table.risesFrom_map (f : α → β) (n : Nat) (t : Table α) :
    Table.risesFrom n (t.map fun e => (e.1, f e.2)) = Table.risesFrom n t := by
  induction t generalizing n with
  | nil => rfl
  | cons e t ih => simp only [List.map_cons, Table.risesFrom, ih]

theorem Table.rises_map (f : α → β) (t : Table α) : Table.rises (t.map fun e => (e.1, f e.2)) = Table.rises t :=
  Table.risesFrom_map f 0 t

theorem Table.risesFrom_filter (p : Nat × α → Bool) {n : Nat} {t : Table α} (h : Table.risesFrom n t = true) :
    Table.risesFrom n (t.filter p) = true := by
  induction t generalizing n with
  | nil => rfl
  | cons e t ih =>
    simp only [Table.risesFrom, Bool.and_eq_true, decide_eq_true_eq] at h
    rw [List.filter_cons]
    split
    · simp only [Table.risesFrom, h.1, ih h.2, decide_true, Bool.and_self]
    · exact Table.risesFrom_le (ih h.2) (Nat.le_succ_of_le h.1)

theorem Table.rises_filter (p : Nat × α → Bool) {t : Table α} (h : Table.rises t = true) :
    Table.rises (t.filter p) = true := Table.risesFrom_filter p h

theorem Table.wf_iff [DecidableEq α] {d : α} {t : Table α} :
    Table.wf d t = true ↔ Table.rises t = true ∧ ∀ e ∈ t, e.2 ≠ d := by
  simp only [Table.wf, Bool.and_eq_true, List.all_eq_true, decide_eq_true_eq]

/-- A map that sends no value but the default to the default keeps the canonical form. -/
theorem Table.wf_map [DecidableEq α] [DecidableEq β] {a : α} {b : β} {t : Table α} (f : α → β) (hf : ∀ v, f v = b → v = a)
    (h : Table.wf a t = true) : Table.wf b (t.map fun e => (e.1, f e.2)) = true := by
  rw [Table.wf_iff] at h ⊢
  refine ⟨(Table.rises_map f t).trans h.1, fun e he => ?_⟩
  obtain ⟨x, hx, rfl⟩ := List.mem_map.1 he
  exact fun hb => h.2 x hx (hf _ hb)

end Tables

/-! ### Canonical tables (R15, R42, R64, R91, R123, R139, R140) -/

theorem tablesCanonical_of_view {s t : State} (v : view { t with tp := s.tp } = view s) (h : tablesCanonical s) :
    tablesCanonical t := by
  obtain ⟨h1, h2, h3, -, -, h6, -, -, h9, h10, h11, h12, h13, -, h15, h16⟩ := fields_of_view v
  have hq : (t.ps.queue.all fun r => r.updates.all updateCanonical) =
      s.ps.queue.all fun r => r.updates.all updateCanonical := by
    have e : ∀ q : List PostingRecord,
        (q.all fun r => r.updates.all updateCanonical) = (q.map (·.updates)).all (·.all updateCanonical) := fun q => by
      rw [List.all_map]; rfl
    rw [e, e, h16]
  unfold tablesCanonical at h ⊢
  rw [h1, h2, h3, h6, h9, h10, h11, h12, h13, h15, hq]
  exact h

theorem storeCanonical_iff {st : Store} : storeCanonical st = true ↔ Table.wf blankStoredCard st.cards = true ∧
    Table.wf blankLine st.live = true ∧ Table.wf blankLine st.closing = true ∧ Table.wf 0 st.marks = true ∧
    Table.rises st.figures = true := by
  simp only [storeCanonical, Bool.and_eq_true, and_assoc]

theorem markCode_eq_zero (m : PairMark) (h : markCode m = 0) : m = .none := by
  cases m with
  | none => rfl
  | matched => cases h
  | disputed => cases h

/-- An update that carries its tables in canonical form keeps the store's. -/
theorem storeCanonical_applyUpdate {st : Store} {u : AreaUpdate} (hu : updateCanonical u = true)
    (h : storeCanonical st = true) : storeCanonical (applyUpdate st u) = true := by
  rw [storeCanonical_iff] at h ⊢
  obtain ⟨hc, hl, hcl, hm, hf⟩ := h
  cases u with
  | card => exact ⟨Table.wf_set _ _ hc, hl, hcl, hm, hf⟩
  | pairLive => exact ⟨hc, Table.wf_set _ _ hl, hcl, hm, hf⟩
  | pairLiveClear => exact ⟨hc, rfl, hcl, hm, hf⟩
  | pairClosing => exact ⟨hc, hl, Table.wf_set _ _ hcl, Table.wf_set _ _ hm, hf⟩
  | pairClosingAll t m =>
    obtain ⟨ht, hm'⟩ := (Bool.and_eq_true _ _).mp hu
    exact ⟨hc, hl, ht, Table.wf_map markCode markCode_eq_zero hm', hf⟩
  | peerFigures => exact ⟨hc, hl, hcl, hm, Table.rises_put _ _ hf⟩
  | peerFiguresClear => exact ⟨hc, hl, hcl, hm, rfl⟩
  | _ => exact ⟨hc, hl, hcl, hm, hf⟩

theorem storeCanonical_foldl {us : List AreaUpdate} (hu : us.all updateCanonical = true) {st : Store}
    (h : storeCanonical st = true) : storeCanonical (us.foldl applyUpdate st) = true := by
  induction us generalizing st with
  | nil => exact h
  | cons u us ih =>
    obtain ⟨hu, hus⟩ := (Bool.and_eq_true _ _).mp (List.all_cons ▸ hu)
    exact ih hus (storeCanonical_applyUpdate hu h)

/-- Every write keeps the tables canonical. -/
theorem tablesCanonical_of_effect {s t : State} (h : Effect s t) (hs : tablesCanonical s) : tablesCanonical t := by
  induction h with
  | refl => exact hs
  | plain _ v ih => exact tablesCanonical_of_view (view_of_same v) ih
  | leaves _ v _ ih => exact tablesCanonical_of_view v ih
  | record _ us ds hu ih =>
    have hus := hu ih
    obtain ⟨hc, hh, ho, hs, hb, hl, hcl, hm, hf, hst, hq⟩ := ih
    refine ⟨hc, hh, ho, hs, hb, hl, hcl, hm, hf, hst, ?_⟩
    simp only [makeRecord, List.all_append, hq, List.all_cons, hus, List.all_nil, Bool.and_self]
  | lines _ _ l c hw ih =>
    obtain ⟨hl, hcl⟩ := hw ih
    obtain ⟨hc, hh, ho, hs, hb, -, -, hm, hf, hst, hq⟩ := ih
    exact ⟨hc, hh, ho, hs, hb, hl, hcl, hm, hf, hst, hq⟩
  | slots _ l hw ih =>
    obtain ⟨hc, hh, ho, hs, hb, hl, hcl, hm, hf, hst, hq⟩ := ih
    exact ⟨hc, hh, ho, hw hs, hb, hl, hcl, hm, hf, hst, hq⟩
  | backoff _ home b ih =>
    obtain ⟨hc, hh, ho, hs, hb, hl, hcl, hm, hf, hst, hq⟩ := ih
    exact ⟨hc, hh, ho, hs, Table.wf_set _ _ hb, hl, hcl, hm, hf, hst, hq⟩
  | marks _ m hw ih =>
    obtain ⟨hc, hh, ho, hs, hb, hl, hcl, hm, hf, hst, hq⟩ := ih
    exact ⟨hc, hh, ho, hs, hb, hl, hcl, hw hm, hf, hst, hq⟩
  | figures _ f hw ih =>
    obtain ⟨hc, hh, ho, hs, hb, hl, hcl, hm, hf, hst, hq⟩ := ih
    exact ⟨hc, hh, ho, hs, hb, hl, hcl, hm, hw hf, hst, hq⟩
  | torn _ ih =>
    obtain ⟨hc, hh, ho, hs, hb, hl, hcl, hm, hf, hst, -⟩ := ih
    exact ⟨hc, hh, ho, hs, hb, hl, hcl, hm, hf, hst, rfl⟩
  | made | freed =>
    rename_i ih
    obtain ⟨hc, hh, ho, hs, hb, hl, hcl, hm, hf, hst, hq⟩ := ih
    exact ⟨hc, Table.wf_set _ _ hh, Table.wf_set _ _ ho, hs, hb, hl, hcl, hm, hf, hst, hq⟩
  | placed _ i l n _ ih =>
    obtain ⟨hc, hh, ho, hs, hb, hl, hcl, hm, hf, hst, hq⟩ := ih
    exact ⟨hc, hh, Table.wf_set _ _ ho, hs, hb, hl, hcl, hm, hf, hst, hq⟩
  | card _ _ k r _ ih =>
    obtain ⟨hc, hh, ho, hs, hb, hl, hcl, hm, hf, hst, hq⟩ := ih
    exact ⟨Table.wf_set _ _ hc, hh, ho, hs, hb, hl, hcl, hm, hf, hst, hq⟩
  | claimed _ _ i a l r _ _ _ _ ih =>
    obtain ⟨hc, hh, ho, hs, hb, hl, hcl, hm, hf, hst, hq⟩ := ih
    exact ⟨Table.wf_set _ _ hc, Table.wf_set _ _ hh, Table.wf_set _ _ ho, hs, hb, hl, hcl, hm, hf, hst, hq⟩
  | area | tagSeq | payout | capLog => assumption

theorem tablesCanonical_of_restarted {s t : State} (h : Restarted s t) (hs : tablesCanonical s) : tablesCanonical t := by
  obtain ⟨-, -, -, -, -, -, -, -, -, hst, hq⟩ := hs
  unfold tablesCanonical
  rw [h.ctu, h.su, h.dq, h.tu, h.store]
  refine ⟨rfl, rfl, rfl, rfl, rfl, rfl, rfl, rfl, rfl, hst, List.all_eq_true.2 fun r hr => ?_⟩
  obtain ⟨r', hr', he⟩ := h.queue r hr
  rw [he]
  exact List.all_eq_true.1 hq r' hr'

theorem tablesCanonical_commitHead {r : PostingRecord} {rest : List PostingRecord} {s : State} (hr : s.ps.queue = r :: rest)
    (h : tablesCanonical s) : tablesCanonical (commitHead r rest s) := by
  obtain ⟨hc, hh, ho, hs, hb, hl, hcl, hm, hf, hst, hq⟩ := h
  rw [hr, List.all_cons, Bool.and_eq_true] at hq
  exact ⟨hc, hh, ho, hs, hb, hl, hcl, hm, hf, storeCanonical_foldl hq.1 hst, hq.2⟩

/-! ### The tables a reload leaves (R33, R34, R134, R136) -/

/-- The reloaded cards are listed in order, each at the index of its area. -/
theorem risesFrom_consCard {n k : Nat} {r : CardRecord} {t : Table CardRecord} (hk : n ≤ k)
    (h : Table.risesFrom (k + 1) t = true) : Table.risesFrom n (consCard k r t) = true := by
  unfold consCard
  split
  · exact Table.risesFrom_le h (by omega)
  · simp only [Table.risesFrom, hk, h, decide_true, Bool.and_self]

theorem risesFrom_reloadCards {ceiling n : Nat} {t : Table StoredCard} (h : Table.risesFrom n t = true) :
    Table.risesFrom n (reloadCards ceiling t) = true := by
  induction t generalizing n with
  | nil => rfl
  | cons e t ih =>
    obtain ⟨k, c⟩ := e
    simp only [Table.risesFrom, Bool.and_eq_true, decide_eq_true_eq] at h
    unfold reloadCards
    split
    · exact risesFrom_consCard h.1 (ih h.2)
    · exact risesFrom_consCard h.1 rfl

/-- A reloaded record is one that passed, or the one that failed as it is reported. -/
theorem mem_reloadCards {ceiling : Nat} {t : Table StoredCard} {e : Nat × CardRecord} (h : e ∈ reloadCards ceiling t) :
    e.2 ≠ blankCard ∧ ∃ c, e.2 = loadCard c ∧ cardPasses ceiling c = true ∨ e.2 = failedCard ceiling c := by
  have hcons : ∀ {k r} {u : Table CardRecord}, e ∈ consCard k r u → e.2 = r ∧ r ≠ blankCard ∨ e ∈ u := by
    intro k r u hm
    unfold consCard at hm
    split at hm
    · exact .inr hm
    · next hr =>
      rcases List.mem_cons.1 hm with rfl | hm
      · exact .inl ⟨rfl, hr⟩
      · exact .inr hm
  induction t with
  | nil => cases h
  | cons x t ih =>
    obtain ⟨k, c⟩ := x
    unfold reloadCards at h
    split at h
    · next hp =>
      rcases hcons h with ⟨he, hr⟩ | hm
      · exact ⟨he ▸ hr, c, .inl ⟨he, hp⟩⟩
      · exact ih hm
    · rcases hcons h with ⟨he, hr⟩ | hm
      · exact ⟨he ▸ hr, c, .inr he⟩
      · cases hm

theorem rises_reloadCardTable {st : Store} (h : Table.rises st.cards = true) : Table.rises (reloadCardTable st) = true := by
  unfold reloadCardTable
  split
  · exact risesFrom_reloadCards h
  · rfl

theorem wf_reloadCardTable {st : Store} (h : Table.wf blankStoredCard st.cards = true) :
    Table.wf blankCard (reloadCardTable st) = true := by
  refine Table.wf_iff.2 ⟨rises_reloadCardTable (Table.rises_of_wf h), fun e he => ?_⟩
  unfold reloadCardTable at he
  split at he
  · exact (mem_reloadCards he).1
  · cases he

theorem wf_readMarks {t : Table Nat} (h : Table.rises t = true) : Table.wf PairMark.none (readMarks t) = true := by
  refine Table.wf_iff.2 ⟨(Table.rises_map _ _).trans (Table.rises_filter _ h), fun e he => ?_⟩
  obtain ⟨x, hx, rfl⟩ := List.mem_map.1 he
  simpa using (List.mem_filter.1 hx).2

theorem tablesCanonical_reloaded {s : State} (h : tablesCanonical s) : tablesCanonical (reloaded s) := by
  obtain ⟨-, -, -, -, -, -, -, -, -, hst, -⟩ := h
  have hst' := hst
  obtain ⟨hc, hl, hcl, hm, hf⟩ := storeCanonical_iff.1 hst'
  refine ⟨wf_reloadCardTable hc, rfl, rfl, rfl, rfl, ?_, ?_, ?_, ?_, hst, rfl⟩
  all_goals
    simp only [reloaded, reloadTu]
    split
  · exact hl
  · rfl
  · exact hcl
  · rfl
  · exact wf_readMarks (Table.rises_of_wf hm)
  · rfl
  · exact hf
  · rfl

/-! ### The tables a tick leaves (R184) -/

/-- A hold table entry one tick later (R43). -/
def tickedHold (e : HoldEntry) : HoldEntry := { e with live := e.live.map fun l => { l with life := l.life - 1 } }

theorem tickHolds_eq (t : Table HoldEntry) : tickHolds t = t.map fun e => (e.1, tickedHold e.2) := rfl

theorem wf_tickHolds {t : Table HoldEntry} (h : Table.wf blankHold t = true) : Table.wf blankHold (tickHolds t) = true :=
  Table.wf_map tickedHold (fun v hv => by obtain ⟨g, l⟩ := v; simpa [blankHold, tickedHold] using hv) h

theorem rises_tickSlots (t : Table Slot) : Table.rises (tickSlots t) = Table.rises t :=
  Table.rises_map (fun sl : Slot => ({ sl with reply := fall sl.reply, holdTimer := fall sl.holdTimer } : Slot)) t

theorem wf_tickBackoff {t : Table BackoffLine} (h : Table.wf blankBackoff t = true) :
    Table.wf blankBackoff (tickBackoff t) = true :=
  Table.wf_map (fun b : BackoffLine => ({ b with time := fall b.time } : BackoffLine))
    (fun v hv => by obtain ⟨l, t⟩ := v; simpa [blankBackoff, fall] using hv) h

theorem tablesCanonical_tick {s : State} (h : tablesCanonical s) : tablesCanonical (tick s) := by
  obtain ⟨hc, hh, ho, hs, hb, hl, hcl, hm, hf, hst, hq⟩ := h
  exact ⟨hc, hh, wf_tickHolds ho, (rises_tickSlots _).trans hs, wf_tickBackoff hb, hl, hcl, hm, hf, hst, hq⟩

theorem keptByKinds_tables : KeptByKinds tablesCanonical where
  same := tablesCanonical_of_view
  effect := tablesCanonical_of_effect
  restart := tablesCanonical_of_restarted
  commit := tablesCanonical_commitHead
  reload := tablesCanonical_reloaded
  tick := tablesCanonical_tick

/-- Settles O3, by what each kind of step keeps. -/
theorem stepKeepsTables : Obligations.StepKeepsTables := fun _ _ => keptByKinds_tables.step

end Sys2Proof.Machine

/-! ## The liability law, the held law and the card law (R16, R22, R23, R33, R34, R42) -/
namespace Sys2Proof.Machine
open Safety

/-! ### Totals of tables -/

/-- The sum of a figure over the entries of a table. -/
def Table.total {α : Type} (f : α → Nat) (t : Table α) : Nat := (t.map fun e => f e.2).sum

section Total
variable {α : Type} (f : α → Nat)

theorem Table.total_cons (e : Nat × α) (t : Table α) : Table.total f (e :: t) = f e.2 + Table.total f t := by
  simp [Table.total]

theorem Table.total_put {n : Nat} {t : Table α} (k : Nat) (v : α) (h : Table.risesFrom n t = true) :
    Table.total f (Table.put t k v) + ((Table.find t k).map f).getD 0 = Table.total f t + f v := by
  induction t generalizing n with
  | nil => simp [Table.total, Table.put]
  | cons e t ih =>
    obtain ⟨i, w⟩ := e
    simp only [Table.risesFrom, Bool.and_eq_true] at h
    have ih := ih h.2
    simp only [Table.put, Table.find_cons]
    split_ifs <;> simp only [Table.total_cons, Option.map_some, Option.map_none, Option.getD_some, Option.getD_none] <;> omega

theorem Table.total_drop {n : Nat} {t : Table α} (k : Nat) (h : Table.risesFrom n t = true) :
    Table.total f (Table.drop t k) + ((Table.find t k).map f).getD 0 = Table.total f t := by
  induction t generalizing n with
  | nil => simp [Table.total, Table.drop]
  | cons e t ih =>
    obtain ⟨i, w⟩ := e
    simp only [Table.risesFrom, Bool.and_eq_true] at h
    have ih := ih h.2
    simp only [Table.drop, Table.find_cons]
    split_ifs <;> simp only [Table.total_cons, Option.map_some, Option.map_none, Option.getD_some, Option.getD_none] <;> omega

/-- A write moves a total by the difference of what it writes and what stood there. -/
theorem Table.total_set [DecidableEq α] {d : α} {t : Table α} (k : Nat) (v : α) (h : Table.rises t = true) (hd : f d = 0) :
    Table.total f (Table.set d t k v) + f (Table.get d t k) = Table.total f t + f v := by
  have hg : f (Table.get d t k) = ((Table.find t k).map f).getD 0 := by
    unfold Table.get
    cases Table.find t k with
    | none => exact hd
    | some w => rfl
  rw [hg]
  unfold Table.set
  split
  · next hv => rw [hv, hd]; exact Table.total_drop f k h
  · exact Table.total_put f k v h

end Total

theorem totalBalance_eq_total (t : Table CardRecord) : totalBalance t = Table.total (·.balance) t := rfl

/-- A value found is listed. -/
theorem Table.mem_of_find {α : Type} {t : Table α} {k : Nat} {v : α} (h : Table.find t k = some v) : (k, v) ∈ t := by
  induction t with
  | nil => cases h
  | cons e t ih =>
    obtain ⟨i, w⟩ := e
    rw [Table.find_cons] at h
    split_ifs at h with h1
    · cases h; exact h1 ▸ List.mem_cons_self ..
    · exact List.mem_cons_of_mem _ (ih h)

/-- What an index reads as holds of the default or of a listed value. -/
theorem Table.get_of_forall {α : Type} {d : α} {t : Table α} {P : α → Prop} (k : Nat) (hd : P d) (h : ∀ e ∈ t, P e.2) :
    P (Table.get d t k) := by
  unfold Table.get
  cases hf : Table.find t k with
  | none => exact hd
  | some v => exact h _ (Table.mem_of_find hf)

/-! ### The store's card areas -/

theorem rises_cards_applyUpdate {st : Store} (u : AreaUpdate) (h : Table.rises st.cards = true) :
    Table.rises (applyUpdate st u).cards = true := by
  cases u with
  | card => exact Table.rises_set _ _ _ h
  | _ => exact h

theorem rises_cards_foldl (us : List AreaUpdate) {st : Store} (h : Table.rises st.cards = true) :
    Table.rises (us.foldl applyUpdate st).cards = true := by
  induction us generalizing st with
  | nil => exact h
  | cons u us ih => exact ih (rises_cards_applyUpdate u h)

theorem Restarted.store_cards {s t : State} (h : Restarted s t) : t.ps.store.cards = s.ps.store.cards := by rw [h.store]

/-! ### The liability law (R23, R33, R34) -/

/-- A card record written moves the liability total and the sum of the balances alike (R23). -/
theorem liabilityLaw_putCard {s : State} (k : Nat) (r : CardRecord) (h : liabilityLaw s) : liabilityLaw (putCard k r s) := by
  obtain ⟨hc, hst, hl⟩ := h
  have ht := Table.total_set (·.balance) k r (d := blankCard) hc rfl
  refine ⟨Table.rises_set _ _ _ hc, hst, ?_⟩
  simp only [putCard, hl, totalBalance_eq_total, cardOf]
  omega

theorem liabilityLaw_of_view {s t : State} (v : view { t with tp := s.tp } = view s) (h : liabilityLaw s) : liabilityLaw t := by
  obtain ⟨hc, -, -, -, hl, -, -, -, -, -, -, -, -, -, hst, -⟩ := fields_of_view v
  unfold liabilityLaw at h ⊢
  rw [hc, hl, hst]
  exact h

theorem liabilityLaw_of_effect {s t : State} (h : Effect s t) (hs : liabilityLaw s) : liabilityLaw t := by
  induction h with
  | refl => exact hs
  | plain _ v ih => exact liabilityLaw_of_view (view_of_same v) ih
  | leaves _ v _ ih => exact liabilityLaw_of_view v ih
  | card _ _ k r _ ih => exact liabilityLaw_putCard k r ih
  | claimed _ _ i a l r _ _ _ _ ih => exact liabilityLaw_putCard (s := freeEntry i l _) l.serial r ih
  | _ => assumption

theorem keptByKinds_liability : KeptByKinds liabilityLaw where
  same := liabilityLaw_of_view
  effect := liabilityLaw_of_effect
  restart h hs := by
    obtain ⟨-, hst, -⟩ := hs
    unfold liabilityLaw
    rw [h.ctu, h.store_cards]
    exact ⟨rfl, hst, rfl⟩
  commit _ hs := by
    obtain ⟨hc, hst, hl⟩ := hs
    exact ⟨hc, rises_cards_foldl _ hst, hl⟩
  reload hs := by
    obtain ⟨-, hst, -⟩ := hs
    exact ⟨rises_reloadCardTable hst, hst, rfl⟩
  tick hs := hs

/-- Settles O4, by what each kind of step keeps. -/
theorem stepKeepsLiability : Obligations.StepKeepsLiability := fun _ _ => keptByKinds_liability.step

/-! ### The held law (R42) -/

/-- The grant of an entry live on a serial. -/
def grantOf (k : Nat) (e : HoldEntry) : Nat :=
  match e.live with
  | some l => if l.serial = k then l.grant else 0
  | none => 0

theorem grantOf_none {e : HoldEntry} (k : Nat) (h : e.live = none) : grantOf k e = 0 := by simp [grantOf, h]

theorem grantOf_some {e : HoldEntry} {l : LiveHold} (k : Nat) (h : e.live = some l) :
    grantOf k e = if l.serial = k then l.grant else 0 := by simp [grantOf, h]

theorem grantsOn_eq_total (s : State) (k : Nat) : grantsOn s k = Table.total (grantOf k) s.ctu.holds := by
  have h : ∀ t : Table HoldEntry, (((t.filterMap fun e => e.2.live.map fun l => (e.1, l)).filter
      fun e => e.2.serial == k).map fun e => e.2.grant).sum = Table.total (grantOf k) t := by
    intro t
    induction t with
    | nil => rfl
    | cons e t ih =>
      rw [Table.total_cons, ← ih]
      cases hl : e.2.live with
      | none => simp [grantOf_none k hl, hl]
      | some l =>
        by_cases hk : l.serial = k <;> simp [grantOf_some k hl, hl, hk]
  exact h s.ctu.holds

/-- One hold table entry written: the grants on a serial move by the difference. -/
theorem grantsOn_putHold {s t : State} {i : Nat} {e : HoldEntry} (hr : Table.rises s.ctu.holds = true)
    (ht : t.ctu.holds = Table.set blankHold s.ctu.holds i e) (k : Nat) :
    grantsOn t k + grantOf k (holdAt s i) = grantsOn s k + grantOf k e := by
  rw [grantsOn_eq_total, grantsOn_eq_total, ht]
  exact Table.total_set (grantOf k) i e hr rfl

/-- One held total written. -/
theorem heldOf_putHeld {s t : State} {j n : Nat} (hr : Table.rises s.ctu.held = true)
    (ht : t.ctu.held = Table.set 0 s.ctu.held j n) (k : Nat) : heldOf t k = if j = k then n else heldOf s k := by
  unfold heldOf
  rw [ht]
  split
  · next h => rw [h]; exact Table.get_set_self _ _ _ _ hr
  · next h => exact Table.get_set_of_ne _ _ _ _ _ hr (Ne.symm h)

theorem rises_holds_of_heldLaw {s : State} (h : heldLaw s) : Table.rises s.ctu.holds = true := h.1

theorem rises_held_of_heldLaw {s : State} (h : heldLaw s) : Table.rises s.ctu.held = true := by
  obtain ⟨-, hh, -⟩ := h
  exact hh

theorem heldLaw_congr {s t : State} (hh : t.ctu.held = s.ctu.held) (ho : t.ctu.holds = s.ctu.holds) (h : heldLaw s) :
    heldLaw t := by
  simp only [heldLaw, grantsOn_eq_total, heldOf, hh, ho] at h ⊢
  exact h

/-- A hold made in a free entry (R42). -/
theorem heldLaw_makeHold {s : State} {i : Nat} {l : LiveHold} (hi : (holdAt s i).live = none) (h : heldLaw s) :
    heldLaw (makeHold i l s) := by
  obtain ⟨ho, hh, hk⟩ := h
  refine ⟨Table.rises_set _ _ _ ho, Table.rises_set _ _ _ hh, fun k => ?_⟩
  have hg := grantsOn_putHold (t := makeHold i l s) (i := i) ho rfl k
  rw [grantOf_none k hi, grantOf_some k rfl] at hg
  rw [heldOf_putHeld (t := makeHold i l s) hh rfl k]
  have := hk k
  split_ifs at hg ⊢ with he
  · subst he; omega
  · omega

/-- A live entry freed (R42). -/
theorem heldLaw_freeEntry {s : State} {i : Nat} {l : LiveHold} (hl : (holdAt s i).live = some l) (h : heldLaw s) :
    heldLaw (freeEntry i l s) := by
  obtain ⟨ho, hh, hk⟩ := h
  refine ⟨Table.rises_set _ _ _ ho, Table.rises_set _ _ _ hh, fun k => ?_⟩
  have hg := grantsOn_putHold (t := freeEntry i l s) (i := i) ho rfl k
  rw [grantOf_none (e := ⟨_, none⟩) k rfl, grantOf_some k hl] at hg
  rw [heldOf_putHeld (t := freeEntry i l s) hh rfl k]
  have := hk k
  split_ifs at hg ⊢ with he
  · subst he; omega
  · omega

/-- An entry that stays live with the same grant. -/
theorem heldLaw_putPlaces {s : State} {i : Nat} {l : LiveHold} (n : Nat) (hl : (holdAt s i).live = some l) (h : heldLaw s) :
    heldLaw (putHold i ⟨(holdAt s i).gen, some { l with places := n }⟩ s) := by
  obtain ⟨ho, hh, hk⟩ := h
  refine ⟨Table.rises_set _ _ _ ho, hh, fun k => ?_⟩
  have hg := grantsOn_putHold (t := putHold i ⟨(holdAt s i).gen, some { l with places := n }⟩ s) ho rfl k
  rw [grantOf_some k hl, grantOf_some k rfl] at hg
  exact (hk k).trans (Nat.add_right_cancel hg).symm

theorem heldLaw_of_effect {s t : State} (h : Effect s t) (hs : heldLaw s) : heldLaw t := by
  induction h with
  | refl => exact hs
  | plain _ v ih | leaves _ v _ ih =>
    have hh := congrArg View.held v
    have ho := congrArg View.holds v
    exact heldLaw_congr hh ho ih
  | made _ i l hi _ ih => exact heldLaw_makeHold hi ih
  | freed _ i l hl ih => exact heldLaw_freeEntry (hl (rises_holds_of_heldLaw hs)) ih
  | placed _ i l n hl ih => exact heldLaw_putPlaces n (hl (rises_holds_of_heldLaw hs)) ih
  | claimed _ _ i a l r hl _ _ _ ih => exact heldLaw_freeEntry (hl (rises_holds_of_heldLaw hs)) ih
  | _ => assumption

theorem heldLaw_blank {t : State} (hh : t.ctu.held = []) (ho : t.ctu.holds = []) : heldLaw t := by
  simp only [heldLaw, grantsOn_eq_total, heldOf, hh, ho]
  exact ⟨rfl, rfl, fun _ => rfl⟩

theorem grantOf_tickedHold (k : Nat) (e : HoldEntry) : grantOf k (tickedHold e) = grantOf k e := by
  cases hl : e.live with
  | none => simp [grantOf, tickedHold, hl]
  | some l => simp [grantOf, tickedHold, hl]

theorem heldLaw_tick {s : State} (h : heldLaw s) : heldLaw (tick s) := by
  obtain ⟨ho, hh, hk⟩ := h
  refine ⟨(Table.rises_map tickedHold _).trans ho, hh, fun k => (hk k).trans ?_⟩
  simp only [grantsOn_eq_total, Table.total, tick, tickHolds_eq, List.map_map]
  exact congrArg List.sum (List.map_congr_left fun e _ => (grantOf_tickedHold k e.2).symm)

theorem keptByKinds_held : KeptByKinds heldLaw where
  same v := heldLaw_congr (congrArg View.held v) (congrArg View.holds v)
  effect := heldLaw_of_effect
  restart h _ := heldLaw_blank (by rw [h.ctu]; rfl) (by rw [h.ctu]; rfl)
  commit _ hs := hs
  reload _ := heldLaw_blank rfl rfl
  tick := heldLaw_tick

/-! ### The card law (R16, R34) -/

/-- One card record written. -/
theorem cardOf_putCard {s : State} (j : Nat) (r : CardRecord) (hr : Table.rises s.ctu.cards = true) (k : Nat) :
    cardOf (putCard j r s) k = if j = k then r else cardOf s k := by
  split
  · next h => rw [← h]; exact Table.get_set_self _ _ _ _ hr
  · next h => exact Table.get_set_of_ne _ _ _ _ _ hr (Ne.symm h)

theorem heldLaw_of_cardLaw {s : State} (h : cardLaw s) : heldLaw s := h.1

theorem rises_cards_of_cardLaw {s : State} (h : cardLaw s) : Table.rises s.ctu.cards = true := by
  obtain ⟨-, hc, -⟩ := h
  exact hc

theorem cardLaw_congr {s t : State} (hc : t.ctu.cards = s.ctu.cards) (hh : t.ctu.held = s.ctu.held)
    (ho : t.ctu.holds = s.ctu.holds) (hst : t.ps.store.cards = s.ps.store.cards) (h : cardLaw s) : cardLaw t := by
  obtain ⟨hl, hr, hs, hk⟩ := h
  refine ⟨heldLaw_congr hh ho hl, hc ▸ hr, hst ▸ hs, fun k => ?_⟩
  simp only [heldOf, cardOf, hc, hh]
  exact hk k

theorem cardLaw_of_view {s t : State} (v : view { t with tp := s.tp } = view s) (h : cardLaw s) : cardLaw t := by
  obtain ⟨hc, hh, ho, -, -, -, -, -, -, -, -, -, -, -, hst, -⟩ := fields_of_view v
  exact cardLaw_congr hc hh ho (congrArg Store.cards hst) h

theorem cardLaw_putCard {s : State} {ceiling k : Nat} {r : CardRecord} (hr : cardFits s ceiling k r) (h : cardLaw s) :
    cardLaw (putCard k r s) := by
  obtain ⟨hl, hc, hst, hk⟩ := h
  obtain ⟨hheld, hempty, -⟩ := hr
  refine ⟨hl, Table.rises_set _ _ _ hc, hst, fun j => ?_⟩
  rw [cardOf_putCard k r hc]
  split
  · next hj => exact hj ▸ ⟨hheld, hempty⟩
  · exact hk j

theorem cardLaw_makeHold {s : State} {i : Nat} {l : LiveHold} (hi : (holdAt s i).live = none)
    (hg : l.grant ≤ available s l.serial) (h : cardLaw s) : cardLaw (makeHold i l s) := by
  obtain ⟨hl, hc, hst, hk⟩ := h
  refine ⟨heldLaw_makeHold hi hl, hc, hst, fun k => ⟨?_, (hk k).2⟩⟩
  have hle := (hk k).1
  rw [heldOf_putHeld (t := makeHold i l s) (rises_held_of_heldLaw hl) rfl k]
  split
  · next he =>
    subst he
    unfold available at hg
    have hsum : heldOf s l.serial + l.grant ≤ (cardOf s l.serial).balance := by omega
    exact hsum
  · exact hle

theorem cardLaw_freeEntry {s : State} {i : Nat} {l : LiveHold} (hi : (holdAt s i).live = some l) (h : cardLaw s) :
    cardLaw (freeEntry i l s) := by
  obtain ⟨hl, hc, hst, hk⟩ := h
  refine ⟨heldLaw_freeEntry hi hl, hc, hst, fun k => ⟨?_, (hk k).2⟩⟩
  rw [heldOf_putHeld (t := freeEntry i l s) (rises_held_of_heldLaw hl) rfl k]
  split
  · next he => exact (Nat.sub_le ..).trans (he ▸ (hk l.serial).1)
  · exact (hk k).1

/-- A claimed hold leaves a record that fits: the held total falls by the grant, the balance by no more (R47). -/
theorem cardFits_of_claim {s : State} {ceiling i amount : Nat} {l : LiveHold} {r : CardRecord} (ha : amount ≤ l.grant)
    (hb : r.balance = (cardOf s l.serial).balance - amount) (hr : r.state = (cardOf s l.serial).state) (h : cardLaw s) :
    cardFits (freeEntry i l s) ceiling l.serial r := by
  obtain ⟨hl, hc, hst, hk⟩ := h
  obtain ⟨hle, hz⟩ := hk l.serial
  refine ⟨?_, fun hf => ?_, ?_⟩
  · rw [heldOf_putHeld (t := freeEntry i l s) (rises_held_of_heldLaw hl) rfl, if_pos rfl]
    omega
  · have := hz (isIssued_congr hr ▸ hf)
    omega
  · exact le_max_of_le_left (hb ▸ Nat.sub_le ..)

theorem cardLaw_of_effect {s t : State} (h : Effect s t) (hs : cardLaw s) : cardLaw t := by
  have hr := rises_holds_of_heldLaw (heldLaw_of_cardLaw hs)
  induction h with
  | refl => exact hs
  | plain _ v ih => exact cardLaw_of_view (view_of_same v) ih
  | leaves _ v _ ih => exact cardLaw_of_view v ih
  | card _ _ k r hf ih => exact cardLaw_putCard (hf ih) ih
  | made _ i l hi hg ih => exact cardLaw_makeHold hi hg ih
  | freed _ i l hl ih => exact cardLaw_freeEntry (hl hr) ih
  | placed _ i l n hl ih =>
    obtain ⟨hh, hrest⟩ := ih
    exact ⟨heldLaw_putPlaces n (hl hr) hh, hrest⟩
  | claimed _ _ i a l r hl ha hb hst ih =>
    exact cardLaw_putCard (cardFits_of_claim (ceiling := 0) ha hb hst ih) (cardLaw_freeEntry (hl hr) ih)
  | _ => assumption

/-- A balance the station writes is within the ceiling in force, or no more than it was (R16). -/
theorem balance_le_of_effect {s t : State} (h : Effect s t) (hs : cardLaw s) (k : Nat) :
    (cardOf t k).balance ≤ max (cardOf s k).balance s.tp.config.ceiling := by
  induction h with
  | refl => exact le_max_left ..
  | plain _ v ih | leaves _ v _ ih =>
    have hc := congrArg View.cards v
    exact (congrArg (fun c => (Table.get blankCard c k).balance) hc).trans_le ih
  | @card u hu _ j r hf ih =>
    have hl := cardLaw_of_effect hu hs
    rw [cardOf_putCard j r (rises_cards_of_cardLaw hl)]
    split
    · next hj =>
      subst hj
      obtain ⟨-, -, hle⟩ := hf hl
      exact hle.trans (max_le ih (le_max_right ..))
    · exact ih
  | @claimed u hu _ i a l r _ _ hb _ ih =>
    have hl := cardLaw_of_effect hu hs
    rw [cardOf_putCard (s := freeEntry i l u) l.serial r (rises_cards_of_cardLaw (s := u) hl)]
    split
    · next hj =>
      subst hj
      exact (hb ▸ Nat.sub_le ..).trans ih
    · exact ih
  | _ => assumption

/-! ### The cards a reload leaves (R33, R34) -/

theorem balance_of_not_issued_loadCard {ceiling : Nat} {c : StoredCard} (hp : cardPasses ceiling c = true)
    (hi : isIssued (loadCard c) = false) : (loadCard c).balance = 0 := by
  simp only [cardPasses, Bool.and_eq_true, decide_eq_true_eq, Bool.not_eq_true', Bool.and_eq_false_iff,
    decide_eq_false_iff_not, Nat.not_lt] at hp
  obtain ⟨⟨⟨⟨hs, -⟩, -⟩, -⟩, he⟩ := hp
  refine Nat.le_zero.1 (he.resolve_left fun he => ?_)
  simp only [emptyState, Bool.or_eq_false_iff, beq_eq_false_iff_ne] at he
  have : c.state = 1 ∨ c.state = 2 := by omega
  rcases this with h | h <;> simp [isIssued, loadCard, storedStateOf, h] at hi

theorem balance_of_not_issued_failedCard {ceiling : Nat} {c : StoredCard} (hi : isIssued (failedCard ceiling c) = false) :
    (failedCard ceiling c).balance = 0 := by
  unfold failedCard
  simp only
  split
  · rfl
  · next he =>
    simp only [emptyState, Bool.or_eq_true, beq_iff_eq, not_or] at he
    have : min c.state 3 = 1 ∨ min c.state 3 = 2 := by omega
    rcases this with h | h <;> simp [isIssued, failedCard, storedStateOf, h] at hi

/-- A serial that a reload leaves not issued carries no balance (R34). -/
theorem balance_of_not_issued_reloaded (s : State) (k : Nat) (h : isIssued (cardOf (reloaded s) k) = false) :
    (cardOf (reloaded s) k).balance = 0 := by
  refine Table.get_of_forall (P := fun r => isIssued r = false → r.balance = 0) k (fun _ => rfl) (fun e he hi => ?_) h
  have he : e ∈ reloadCardTable s.ps.store := he
  unfold reloadCardTable at he
  split at he
  · obtain ⟨-, c, hc⟩ := mem_reloadCards he
    rcases hc with ⟨hc, hp⟩ | hc
    · rw [hc] at hi ⊢
      exact balance_of_not_issued_loadCard hp hi
    · rw [hc] at hi ⊢
      exact balance_of_not_issued_failedCard hi
  · cases he

theorem cardLaw_of_restarted {s t : State} (h : Restarted s t) (hs : cardLaw s) : cardLaw t := by
  obtain ⟨hl, -, hst, -⟩ := hs
  have hc : t.ctu.cards = [] := by rw [h.ctu]; rfl
  have hh : t.ctu.held = [] := by rw [h.ctu]; rfl
  refine ⟨keptByKinds_held.restart h hl, hc ▸ rfl, h.store_cards ▸ hst, fun k => ?_⟩
  simp only [heldOf, cardOf, hc, hh]
  exact ⟨Nat.zero_le _, fun _ => rfl⟩

theorem cardLaw_reloaded {s : State} (hs : cardLaw s) : cardLaw (reloaded s) := by
  obtain ⟨hl, -, hst, -⟩ := hs
  exact ⟨keptByKinds_held.reload hl, rises_reloadCardTable hst, hst, fun k =>
    ⟨Nat.zero_le _, balance_of_not_issued_reloaded s k⟩⟩

theorem keptByKinds_cards : KeptByKinds cardLaw where
  same := cardLaw_of_view
  effect := cardLaw_of_effect
  restart := cardLaw_of_restarted
  commit _ hs := by
    obtain ⟨hl, hc, hst, hk⟩ := hs
    exact ⟨hl, hc, rises_cards_foldl _ hst, hk⟩
  reload := cardLaw_reloaded
  tick hs := by
    obtain ⟨hl, hrest⟩ := hs
    exact ⟨keptByKinds_held.tick hl, hrest⟩

/-- No command but the reload takes a balance above the ceiling in force, unless it stood above it (R16). -/
theorem balance_le_of_exec {c : Instr} {s t : State} (h : ExecKind c s t) (hs : cardLaw s) (hr : s.tp.startup ≠ .reloading)
    (k : Nat) : (cardOf t k).balance ≤ max (cardOf s k).balance s.tp.config.ceiling := by
  have hblank : t.ctu = blankCtu → (cardOf t k).balance ≤ max (cardOf s k).balance s.tp.config.ceiling := fun he => by
    rw [cardOf, he]
    exact Nat.zero_le _
  cases h with
  | effect h => exact balance_le_of_effect h hs k
  | joins _ v =>
    have hc := congrArg View.cards v
    exact (congrArg (fun c => (Table.get blankCard c k).balance) hc).trans_le (le_max_left ..)
  | restart _ h => exact hblank h.ctu
  | commit r rest hq h => exact balance_le_of_effect h (keptByKinds_cards.commit hq hs) k
  | commitRestart r rest hq _ h => exact hblank h.ctu
  | reload he _ => exact absurd he hr

/-- Settles O6: the law by what each kind of step keeps, the ceiling by what each write of a card is made under. -/
theorem stepKeepsCards : Obligations.StepKeepsCards := by
  refine ⟨fun _ _ => keptByKinds_cards.step, fun s t hs hr h k => ?_⟩
  rcases step_cases h with ⟨c, u, hv, hu, hk⟩ | rfl | rfl
  · have hc : cardOf u k = cardOf s k := congrArg (fun c => Table.get blankCard c k) (congrArg View.cards hv)
    rw [← hc, ← hu]
    exact balance_le_of_exec hk (cardLaw_of_view (view_of_same hv) hs) (hu ▸ hr) k
  · have hc : cardOf (clock s) k = cardOf s k := by unfold clock; split <;> rfl
    exact hc ▸ le_max_left ..
  · exact le_max_left ..

end Sys2Proof.Machine

/-! ## HALTED-STORE keeps the accounts (R35, R61, R103, R131, R155) -/
namespace Sys2Proof.Machine
open Safety

/-- The two states agree in every account. -/
def sameAccounts (s t : State) : Prop :=
  t.ctu.cards = s.ctu.cards ∧ t.ctu.capLog = s.ctu.capLog ∧ t.ctu.liability = s.ctu.liability ∧
    t.su.tagSeq = s.su.tagSeq ∧ t.dq.area = s.dq.area ∧ t.tu.live = s.tu.live ∧ t.tu.closing = s.tu.closing ∧
    t.tu.payout = s.tu.payout

theorem sameAccounts_of_view {s t : State} (v : view { t with tp := s.tp } = view s) : sameAccounts s t := by
  obtain ⟨hc, -, -, hlog, hl, -, hg, ha, -, hlive, hclosing, -, -, hp, -, -⟩ := fields_of_view v
  exact ⟨hc, hlog, hl, hg, ha, hlive, hclosing, hp⟩

theorem sameAccounts.trans {s t u : State} (h : sameAccounts s t) (h' : sameAccounts t u) : sameAccounts s u := by
  obtain ⟨h1, h2, h3, h4, h5, h6, h7, h8⟩ := h
  obtain ⟨g1, g2, g3, g4, g5, g6, g7, g8⟩ := h'
  exact ⟨g1.trans h1, g2.trans h2, g3.trans h3, g4.trans h4, g5.trans h5, g6.trans h6, g7.trans h7, g8.trans h8⟩

/-- Out of JOINED no write of the running blocks touches an account, and none leads into JOINED. -/
theorem sameAccounts_of_effect {s t : State} (h : Effect s t) (hs : isJoined s = false) :
    isJoined t = false ∧ sameAccounts s t := by
  induction h with
  | refl => exact ⟨hs, sameAccounts_of_view rfl⟩
  | plain _ v ih => exact ⟨(congrArg View.joined v).trans ih.1, ih.2.trans (sameAccounts_of_view (view_of_same v))⟩
  | leaves _ v hj ih => exact ⟨hj, ih.2.trans (sameAccounts_of_view v)⟩
  | area _ hj | tagSeq _ hj | lines _ hj | payout _ hj | capLog _ hj | card _ hj | claimed _ hj =>
    rename_i ih
    exact absurd hj (Bool.eq_false_iff.1 ih.1)
  | _ => assumption

/-- Settles O13: in HALTED-STORE a command that is no restart has the effect of the running blocks, on the state or on the
state with the head record durable. -/
theorem haltedKeepsAccounts : Obligations.HaltedKeepsAccounts := by
  intro c s t h hu hh hr
  have hst : s.tp.station = .halted := by simpa [isHalted] using hh
  obtain ⟨-, hup⟩ := (isUp_iff s).1 hu
  have hj : isJoined s = false := isJoined_of_station (by rw [hst]; exact StationState.noConfusion)
  cases execKind_of_next h with
  | effect h => exact (sameAccounts_of_effect h hj).2
  | commit r rest hq h => exact (sameAccounts_of_effect h hj).2
  | joins hc => rw [hst] at hc; cases hc
  | restart hc =>
    rcases hc with hc | hc
    · rw [hr] at hc; cases hc
    · exact absurd hup hc
  | commitRestart r rest hq hs => rw [hup] at hs; cases hs
  | reload hs => rw [hup] at hs; cases hs

end Sys2Proof.Machine

/-! ## Card areas (R33, R34, R124) -/
namespace Sys2Proof.Machine
open Safety

@[simp] theorem storedStateOf_storedStateCode (x : StoredState) : storedStateOf (storedStateCode x) = some x := by
  cases x <;> rfl

@[simp] theorem tagKindOf_tagKindCode (k : TagKind) : tagKindOf (tagKindCode k) = some k := by cases k <;> rfl

theorem storedStateCode_le (x : StoredState) : storedStateCode x ≤ 3 := by cases x <;> decide

/-- A record whose stored state may carry no balance is not issued (R17, R34). -/
theorem isIssued_of_emptyState {r : CardRecord} (h : emptyState (storedStateCode r.state) = true) : isIssued r = false := by
  unfold isIssued
  cases hs : r.state with
  | unissued | closed => rfl
  | active | frozen => rw [hs] at h; cases h

theorem isStation_iff {st : Station} : isStation st = true ↔ 1 ≤ st.toNat ∧ st.toNat ≤ 62 := by
  have h0 : (0 : Station).toNat = 0 := rfl
  have h63 : (63 : Station).toNat = 63 := rfl
  have hlt := st.isLt
  simp only [isStation, Bool.and_eq_true, bne_iff_ne, ne_eq, ← BitVec.toNat_inj, h0, h63]
  omega

/-- A recent tag of a station is read back as it was stored (R34). -/
theorem readTag_storeTag {e : RecentTag} (h : isStation e.station = true) : readTag (storeTag e) = some e := by
  simp [readTag, storeTag, isStation_iff.1 h]

theorem readTags_storeTags {es : List RecentTag} (h : ∀ e ∈ es, isStation e.station = true) :
    readTags (es.map storeTag) = some es := by
  induction es with
  | nil => rfl
  | cons e es ih =>
    rw [List.forall_mem_cons] at h
    simp [readTags, readTag_storeTag h.1, ih h.2]

theorem goodTags_storeTags {es : List RecentTag} (hok : tagsOk es = true) (h : ∀ e ∈ es, isStation e.station = true) :
    goodTags (es.map storeTag) = some es := by
  simp [goodTags, readTags_storeTags h, Option.filter, hok]

/-- Settles O19: each field of the stored record is read back, and passes its test. -/
theorem cardAreaRoundTrip : Obligations.CardAreaRoundTrip := by
  intro r ceiling hok hst hb hi
  have ht := goodTags_storeTags hok hst
  refine ⟨?_, ?_⟩
  · have he : emptyState (storedStateCode r.state) = true → r.balance = 0 := fun h => hi (isIssued_of_emptyState h)
    have hg : r.gen.toNat ≤ 31 := Nat.le_of_lt_succ r.gen.isLt
    have hz : (emptyState (storeCard r).state && decide (0 < (storeCard r).balance)) = false := by
      cases h : emptyState (storeCard r).state with
      | false => rfl
      | true => simp [storeCard, he h]
    unfold cardPasses
    rw [hz]
    simp [storeCard, ht, storedStateCode_le, hg, hb]
  · simp [loadCard, storeCard, ht]

end Sys2Proof.Machine

/-! ## The reset state (R33, R42, R86, R123, R135, R175) -/
namespace Sys2Proof.Machine
open Safety

theorem cardLaw_reset : cardLaw State.reset :=
  ⟨heldLaw_blank rfl rfl, rfl, rfl, fun _ => ⟨Nat.zero_le _, fun _ => rfl⟩⟩

theorem areaLaw_blank : areaLaw ⟨[], 0⟩ := by
  refine ⟨Nat.zero_le _, List.nodup_nil, Nat.zero_le _, rfl, ?_⟩
  simp

theorem entryLaw_reset : entryLaw State.reset := by
  refine ⟨List.nodup_nil, rfl, ?_, areaLaw_blank, areaLaw_blank, ?_, ?_, ?_, ?_⟩ <;>
    simp [State.reset, blankCtu, blankSu, blankDq]

theorem commandLaw_reset : commandLaw State.reset := by
  refine ⟨fun h => ?_, fun h => ?_⟩
  · exact ⟨rfl, by decide⟩
  · cases h

/-- Settles O11: every table and queue of the reset state is empty. -/
theorem resetMeetsTheLaws : Obligations.ResetMeetsTheLaws := by
  refine ⟨⟨rfl, rfl, rfl, rfl, rfl, rfl, rfl, rfl, rfl, rfl, rfl⟩, ⟨rfl, rfl, rfl⟩, cardLaw_reset, ⟨?_, ?_⟩, .inl rfl,
    ⟨rfl, ?_, ?_⟩, commandLaw_reset, ⟨rfl, ?_⟩, entryLaw_reset, rfl, rfl, rfl, rfl, rfl, ?_, ?_⟩
  · decide
  · simp [State.reset]
  · decide
  · decide
  · simp [State.reset, blankSu]
  · decide
  · decide

end Sys2Proof.Machine

/-! ## Home till operations (R19 to R30, R168, R170) -/
namespace Sys2Proof.Machine
open Safety

/-- A home till operation on a card goes to its owner, or is refused NO-HOME (R170). -/
theorem homeOp_routed {s : State} {code seq : Byte} (card : CardNo) (op : HomeOp) (h : idlePort s)
    (hj : s.tp.station = .joined) :
    nextSatisfies (intake code seq (tested tradeTest (routeHomeOp card op)) s) fun t => onlyPort s t ∧ t.tp =
      if isMember s (cardHome card) then handed s code seq (.homeOp op) else answered s (refusedAs code seq .noHome) := by
  have hm : isMember (takeCommand code seq s) (cardHome card) = isMember s (cardHome card) := rfl
  by_cases hh : isMember s (cardHome card) = true
  · rw [if_pos hh]
    refine intake_handed h ?_
    rw [tested_trade _ _ _ _ hj, routeHomeOp, hm, if_pos hh]
  · rw [if_neg hh]
    refine intake_refused h ?_
    rw [tested_trade _ _ _ _ hj, routeHomeOp, hm, if_neg hh]

/-- Settles O37: SELL is handed on as it is, the others by their card's home. -/
theorem homeCommandsHanded : Obligations.HomeCommandsHanded := by
  intro s seq card amount expiry h hj
  refine ⟨?_, fun x hx => ?_⟩
  · obtain ⟨t, ht, hp, htp⟩ := intake_handed (code := 0x10) (seq := seq) h
      (tested_trade 0x10 seq (handTo (.homeOp (.sell amount.toNat expiry))) s hj)
    exact ⟨t, ht, htp, hp⟩
  · simp only [List.mem_cons, List.not_mem_nil, or_false] at hx
    rcases hx with rfl | rfl | rfl
    · exact homeOp_routed card _ h hj
    · exact homeOp_routed card _ h hj
    · exact homeOp_routed card _ h hj

/-- A home till operation that is not refused, with a free place: one record of CARD and TAGSEQ, ACCEPTED (R24). -/
theorem takeHomeOp_accepted {s : State} {op : HomeOp} {serial asked : Nat} {r : CardRecord} {n : Notice}
    (hr : Table.rises s.ctu.cards = true) (hp : 1 ≤ sparePlaces s) (hd : homeDecision s op = .inr (serial, r, n, asked)) :
    takeHomeOp op s = accept (nextTag s) [] (makeRecord [.card serial r, .tagSeq (nextTag s)]
      [.placed { n with tag := nextTag s } asked] (putTagSeq (nextTag s) (putCard serial r (takePlaces 1 s)))) := by
  have hc : cardOf (putTagSeq (nextTag s) (putCard serial r (takePlaces 1 s))) serial = r :=
    (cardOf_putCard (s := takePlaces 1 s) serial r hr serial).trans (if_pos rfl)
  simp only [takeHomeOp, hd, if_neg (Nat.not_lt.2 hp), cardUpdate, hc]

/-- The take of such an operation (R24). -/
theorem homeOp_taken {s : State} {op : HomeOp} {serial asked : Nat} {r : CardRecord} {n : Notice} (ht : takesLocal s = true)
    (hr : Table.rises s.ctu.cards = true) (hp : 1 ≤ sparePlaces s) (hh : s.tp.hand = some (.homeOp op))
    (hd : homeDecision s op = .inr (serial, r, n, asked)) :
    nextSatisfies (exec .homeOperationTake s) fun t =>
      oneCard s t serial r ∧
      t.ctu = { s.ctu with
        cards := t.ctu.cards, liability := s.ctu.liability + r.balance - (cardOf s serial).balance, turn := .line } ∧
      t.su = { s.su with tagSeq := nextTag s } ∧
      t.tp = { s.tp with
        busy := false, hand := none, taken := s.tp.taken + 1
        response := { s.tp.response with result := .accepted, reason := .none, tag := nextTag s, data := [] } } ∧
      oneRecord s t [.card serial r, .tagSeq (nextTag s)] [.placed { n with tag := nextTag s } asked] ∧
      t = { s with tp := t.tp, ctu := t.ctu, su := t.su, ps := t.ps } := by
  have he : exec .homeOperationTake s = .next (settleWaiting (takeHomeOp op (popLocal s))) := by
    show execHomeOperationTake s = _
    simp only [execHomeOperationTake, hh, ht, if_true]
  rw [takeHomeOp_accepted (s := popLocal s) hr hp hd] at he
  exact ⟨_, he, oneCard_of_set hr rfl, rfl, rfl, rfl, rfl, rfl⟩

/-! ### What each operation comes to (R25 to R30) -/

section Decisions
variable {s : State} {serial : Nat} {card : CardNo}

theorem homeDecision_sell {amount : Nat} {expiry : Option Day} (h1 : 1 ≤ amount) (h2 : amount ≤ s.tp.config.ceiling)
    (he : ∀ e, expiry = some e → earlier e (liveDay s) = false) (hs : sellable s = some serial)
    (hc : card = makeCard s.tp.config.mall s.tp.config.station serial (soldCard s serial amount expiry).gen) :
    homeDecision s (.sell amount expiry) = .inr (serial, soldCard s serial amount expiry,
      { plainNotice 0 card .sold with
        check := checkCode card s.tp.config.seed, cardState := .active, amountA := amount }, amount) := by
  have ha : ¬ (amount < 1 ∨ s.tp.config.ceiling < amount) := by omega
  subst hc
  cases expiry with
  | none => simp only [homeDecision, if_neg ha, hs, Bool.false_eq_true, if_false, ownStation]
  | some e => simp only [homeDecision, if_neg ha, hs, he e rfl, Bool.false_eq_true, if_false, ownStation]

theorem homeDecision_close (ht : homeCardTests s card = none) (hh : heldOf s (cardSerial card) = 0) :
    homeDecision s (.close card) = .inr (cardSerial card,
      { cardOf s (cardSerial card) with state := .closed, balance := 0, lastDay := liveDay s },
      { plainNotice 0 card .closed with amountA := (cardOf s (cardSerial card)).balance }, 0) := by
  simp only [homeDecision, ht, hh, Nat.lt_irrefl, if_false]

theorem homeDecision_freeze (ht : homeCardTests s card = none) (hs : reported s (cardSerial card) = .active) :
    homeDecision s (.freeze card) = .inr (cardSerial card,
      { cardOf s (cardSerial card) with state := .frozen, lastDay := liveDay s },
      { plainNotice 0 card .stateSet with cardState := .frozen }, 0) := by
  simp only [homeDecision, ht, hs, ne_eq, not_true, if_false]

theorem homeDecision_unfreeze (ht : homeCardTests s card = none) (hs : reported s (cardSerial card) = .frozen) :
    homeDecision s (.unfreeze card) = .inr (cardSerial card,
      { cardOf s (cardSerial card) with state := .active, lastDay := liveDay s },
      { plainNotice 0 card .stateSet with cardState := .active }, 0) := by
  simp only [homeDecision, ht, hs, ne_eq, not_true, if_false]

end Decisions

/-- Settles O41: each operation by what it comes to, and the one take of them all. -/
theorem homeOperationTaken : Obligations.HomeOperationTaken := by
  intro s amount serial expiry card r n asked ht hr hp hop
  rcases hop with ⟨hh, h1, h2, he, hs, rfl, rfl, hc, rfl⟩ | ⟨hh, hk, rfl, hz, rfl, rfl, rfl⟩ | ⟨hh, hk, rfl, hs, rfl, rfl, rfl⟩ |
    ⟨hh, hk, rfl, hs, rfl, rfl, rfl⟩
  · exact homeOp_taken ht hr hp hh (homeDecision_sell h1 h2 he hs hc)
  · exact homeOp_taken ht hr hp hh (homeDecision_close hk hz)
  · exact homeOp_taken ht hr hp hh (homeDecision_freeze hk hs)
  · exact homeOp_taken ht hr hp hh (homeDecision_unfreeze hk hs)

end Sys2Proof.Machine

/-! ## The reload (R33, R104, R132 to R136, R156) -/
namespace Sys2Proof.Machine
open Safety

section Reload
variable {st : Store}

/-- A reload that succeeds restores every area (R133, R136). -/
theorem restored_of_succeeds (h : reloadSucceeds st = true) {k : Nat} (hk : k < 10) : restored st k = true := by
  have hall : ∀ x ∈ areaTests st, id x = true := List.all_eq_true.1 h
  have hlen : areasPassed st = 10 := by rw [areasPassed, List.takeWhile_eq_self_iff.2 hall]; rfl
  simp only [restored, hlen, decide_eq_true_eq, hk]

/-- A stored configuration of a reload that succeeds is valid (R134, R135). -/
theorem validConfig_of_succeeds (h : reloadSucceeds st = true) : validConfig st = st.config := by
  have hc : configPasses st = true := List.all_eq_true.1 h _ (List.mem_cons_self ..)
  unfold configPasses at hc
  cases hs : st.config with
  | none => simp [validConfig, hs]
  | some c =>
    rw [hs] at hc
    simp only [validConfig, hs, Option.filter, hc, if_true]

theorem cardPasses_of_succeeds (h : reloadSucceeds st = true) : ∀ e ∈ st.cards, cardPasses (reloadCeiling st) e.2 = true := by
  have hc : (st.cards.all fun e => cardPasses (reloadCeiling st) e.2) = true :=
    List.all_eq_true.1 h _ (by simp [areaTests])
  exact List.all_eq_true.1 hc

theorem loadCard_blank : loadCard blankStoredCard = blankCard := rfl

/-- A record put before the others is read at its serial; a blank one reads as a serial that is not listed. -/
theorem get_consCard {j k : Nat} {r : CardRecord} {t : Table CardRecord} (h : Table.risesFrom (j + 1) t = true) :
    Table.get blankCard (consCard j r t) k = if j = k then r else Table.get blankCard t k := by
  have hlt : k < j + 1 → Table.get blankCard t k = blankCard := fun hk => by rw [Table.get, Table.find_of_lt h hk]; rfl
  unfold consCard
  split
  · next hr =>
    split
    · next hj => rw [hlt (by omega), hr]
    · rfl
  · rw [Table.get, Table.find_cons]
    split
    · rfl
    · split
      · exact (hlt (by omega)).symm
      · rfl

/-- Cards whose areas all pass are each read back (R33). -/
theorem get_reloadCards {ceiling n k : Nat} {t : Table StoredCard} (h : Table.risesFrom n t = true)
    (hp : ∀ e ∈ t, cardPasses ceiling e.2 = true) :
    Table.get blankCard (reloadCards ceiling t) k = loadCard (Table.get blankStoredCard t k) := by
  induction t generalizing n with
  | nil => exact loadCard_blank.symm
  | cons e t ih =>
    obtain ⟨j, c⟩ := e
    simp only [Table.risesFrom, Bool.and_eq_true, decide_eq_true_eq] at h
    obtain ⟨hc, hp⟩ := List.forall_mem_cons.1 hp
    rw [reloadCards, if_pos hc, get_consCard (risesFrom_reloadCards h.2), ih h.2 hp]
    by_cases hj : j = k
    · simp [Table.get, Table.find_cons, hj]
    · by_cases hk : k < j
      · simp [Table.get, Table.find_cons, hj, hk, Table.find_of_lt h.2 (Nat.lt_succ_of_lt hk)]
      · simp [Table.get, Table.find_cons, hj, hk]

/-- After a reload that succeeds every serial reads as its stored area (R33). -/
theorem cardOf_reloaded {s : State} (h : reloadSucceeds s.ps.store = true) (hr : Table.rises s.ps.store.cards = true)
    (k : Nat) : cardOf (reloaded s) k = loadCard (Table.get blankStoredCard s.ps.store.cards k) := by
  show Table.get blankCard (reloadCardTable s.ps.store) k = _
  rw [reloadCardTable, if_pos (restored_of_succeeds h (by decide))]
  exact get_reloadCards hr (cardPasses_of_succeeds h)

/-- The Tally Unit after a reload that succeeds (R141, R156, R166). -/
theorem reloadTu_of_succeeds (h : reloadSucceeds st = true) : reloadTu st = { blankTu with
    liveDay := st.liveDay, live := st.live, closing := st.closing, marks := readMarks st.marks, round := st.round
    figures := st.figures, state := rebuiltState st.round
    revised := (reloadTu st).revised
    payout := st.payout.map (mapPayout pairStateOfCode) } := by
  simp [reloadTu, reloadRound, reloadPayout, h, restored_of_succeeds h]

/-- The payout record is revised when it is of the closing day (R156). -/
theorem revised_of_succeeds (h : reloadSucceeds st = true) {p : PayoutRecord Nat} {d : Day} (hp : st.payout = some p)
    (hd : st.round.day = some d) : (reloadTu st).revised = decide (p.day = d) := by
  simp [reloadTu, reloadRound, reloadPayout, restored_of_succeeds h, hp, hd, mapPayout]

theorem revised_of_none (h : reloadSucceeds st = true) (hn : st.payout = none ∨ st.round.day = none) :
    (reloadTu st).revised = false := by
  rcases hn with hn | hn <;> simp [reloadTu, reloadRound, reloadPayout, restored_of_succeeds h, hn]

end Reload

/-- Settles O31: what the reload clears and keeps is as it is written; a reload that succeeds restores every area. -/
theorem reloadRestores : Obligations.ReloadRestores := by
  intro s hr hs
  have he : exec .reload s = .next (reloaded s) := by
    show execReload s = _
    rw [execReload, if_pos ⟨hr, hs⟩]
  refine ⟨_, he, rfl, rfl, rfl, rfl, rfl, rfl, rfl, rfl, rfl, rfl, rfl, rfl, rfl, rfl, rfl, rfl, rfl, rfl, rfl, rfl, rfl,
    rfl, rfl, rfl, rfl, rfl, rfl, rfl, rfl, rfl, rfl, rfl, fun hf => ?_, fun hok => ?_⟩
  · simp [reloaded, reloadStation, reloadConfig, reloadTu, hf, eventBit]
  · have htu : (reloaded s).tu = _ := reloadTu_of_succeeds hok
    have hv := validConfig_of_succeeds hok
    have hrev : (reloaded s).tu.revised = (reloadTu s.ps.store).revised := rfl
    refine ⟨?_, by rw [htu], by rw [htu], by rw [htu], by rw [htu], by rw [htu], ?_, ?_, ?_, cardOf_reloaded hok,
      by rw [htu], by rw [htu], ?_, by rw [htu], fun c hc => ?_, fun hc => ?_⟩
    · simp [reloaded, hok]
    · simp [reloaded, restored_of_succeeds hok]
    · simp [reloaded, restored_of_succeeds hok]
    · simp only [reloaded, reloadEntries, hok, if_true]
      rfl
    · rw [hrev]
      cases hp : s.ps.store.payout with
      | none => exact revised_of_none hok (.inl hp)
      | some p =>
        cases hd : s.ps.store.round.day with
        | none => exact revised_of_none hok (.inr hd)
        | some d => exact revised_of_succeeds hok hp hd
    · simp [reloaded, reloadStation, reloadConfig, hok, hv, hc]
    · rw [hc] at hv
      refine ⟨?_, ?_, ?_⟩ <;> simp [reloaded, reloadStation, reloadConfig, hok, hv, defaultConfig]

end Sys2Proof.Machine

/-! ## CONFIGURE's stages (R36, R90, R171, R172) -/
namespace Sys2Proof.Machine
open Safety

/-! ### Sets of stations -/

theorem getLsbD_station_bit (n : Nat) {k : Nat} (hk : k < 64) : (1#64 <<< n).getLsbD k = decide (k = n) := by
  simp only [BitVec.getLsbD_shiftLeft, BitVec.getLsbD_one, hk, decide_true, Bool.true_and]
  by_cases h : k < n
  · simp [h, Nat.ne_of_lt h]
  · have e : (k - n = 0) ↔ (k = n) := by omega
    simp [h, e]

theorem getLsbD_empty (k : Nat) : (0 : StationSet).getLsbD k = false := BitVec.getLsbD_zero

@[simp] theorem getLsbD_addTo (m : StationSet) (x st : Station) :
    (addTo m x).getLsbD st.toNat = (m.getLsbD st.toNat || decide (st.toNat = x.toNat)) := by
  rw [addTo, BitVec.getLsbD_or, getLsbD_station_bit _ st.isLt]

/-- The map keeps the stations 1 to 62 (R172). -/
@[simp] theorem getLsbD_mapBits (m : StationSet) (st : Station) :
    (mapBits m).getLsbD st.toNat = (m.getLsbD st.toNat && isStation st) := by
  have hmask : ∀ k : Fin 64, (0x7FFFFFFFFFFFFFFE#64).getLsbD k = decide (1 ≤ k.val ∧ k.val ≤ 62) := by decide
  have hst : isStation st = decide (1 ≤ st.toNat ∧ st.toNat ≤ 62) := by
    rw [Bool.eq_iff_iff, isStation_iff, decide_eq_true_eq]
  rw [mapBits, BitVec.getLsbD_and, hst]
  exact congrArg _ (hmask ⟨st.toNat, st.isLt⟩)

theorem getLsbD_foldl_bits (l : List Nat) (m : StationSet) {k : Nat} (hk : k < 64) :
    (l.foldl (fun m n => m ||| (1#64 <<< n)) m).getLsbD k = (m.getLsbD k || decide (k ∈ l)) := by
  induction l generalizing m with
  | nil => simp
  | cons n l ih =>
    rw [List.foldl_cons, ih, BitVec.getLsbD_or, getLsbD_station_bit n hk, Bool.or_assoc]
    simp [List.mem_cons]

@[simp] theorem getLsbD_setOf (l : List Nat) (st : Station) : (setOf l).getLsbD st.toNat = decide (st.toNat ∈ l) := by
  rw [setOf, getLsbD_foldl_bits _ _ st.isLt]
  simp

/-! ### Listed indices -/

theorem Table.find_isSome_iff {α : Type} {n k : Nat} {t : Table α} (h : Table.risesFrom n t = true) :
    (Table.find t k).isSome = true ↔ k ∈ t.map (·.1) := by
  refine ⟨fun hs => ?_, fun hm => ?_⟩
  · obtain ⟨v, hv⟩ := Option.isSome_iff_exists.1 hs
    exact List.mem_map.2 ⟨_, Table.mem_of_find hv, rfl⟩
  · obtain ⟨e, he, rfl⟩ := List.mem_map.1 hm
    exact Option.isSome_iff_exists.2 ⟨_, Table.find_of_mem h he⟩

/-- In a canonical table the indices listed are those that do not read as the default. -/
theorem Table.get_ne_iff {α : Type} [DecidableEq α] {d : α} {t : Table α} {k : Nat} (h : Table.wf d t = true) :
    Table.get d t k ≠ d ↔ k ∈ t.map (·.1) := by
  obtain ⟨hr, hd⟩ := Table.wf_iff.1 h
  rw [← Table.find_isSome_iff hr]
  unfold Table.get
  cases hf : Table.find t k with
  | none => simp
  | some v => simpa using hd _ (Table.mem_of_find hf)

/-! ### Clamped and raised fields -/

/-- A field whose default is in its range: as sent within it, else at the nearer limit; its default when absent (R172). -/
theorem clampTo_asked {sent lo hi dflt : Nat} (b : Bool) (h1 : lo ≤ dflt) (h2 : dflt ≤ hi) :
    clampTo lo hi (if b then sent else dflt) =
      if b = false then dflt else if sent < lo then lo else if hi < sent then hi else sent := by
  unfold clampTo
  cases b <;> simp only [if_true, if_false, Bool.false_eq_true, reduceCtorEq]
  · omega
  · split_ifs <;> omega

theorem clampTo_mem {lo hi : Nat} (v : Nat) (h : lo ≤ hi) : lo ≤ clampTo lo hi v ∧ clampTo lo hi v ≤ hi := by
  unfold clampTo
  omega

theorem foldl_max_eq (l : List Nat) (a : Nat) : l.foldl max a = max a (l.foldl max 0) := by
  induction l generalizing a with
  | nil => simp
  | cons x l ih => rw [List.foldl_cons, List.foldl_cons, ih (max a x), ih (max 0 x)]; omega

/-! ### The clamped map -/

theorem getLsbD_changedBit (j : Nat) (b : Bool) {k : Nat} (hk : k < 16) :
    (changedBit j b).getLsbD k = (b && decide (k = j)) := by
  unfold changedBit
  cases b with
  | false => simp
  | true =>
    simp only [if_true, BitVec.getLsbD_shiftLeft, BitVec.getLsbD_one, hk, decide_true, Bool.true_and]
    by_cases h : k < j
    · simp [h, Nat.ne_of_lt h]
    · have e : (k - j = 0) ↔ (k = j) := by omega
      simp [h, e]

theorem mem_if_singleton {P : Prop} [Decidable P] {j k : Nat} : k ∈ (if P then [j] else []) ↔ P ∧ k = j := by
  split
  · next h => simp [h]
  · next h => simp [h]

/-- Bit k of the clamped map stands where the field of present bit k differs (R12, R171). -/
theorem getLsbD_clampedMap (a d : ConfigRecord) {k : Nat} (hk : k < 16) : (clampedMap a d).getLsbD k = true ↔
    k ∈ (if a.members ≠ d.members then [0] else []) ++ (if a.lineRate ≠ d.lineRate then [1] else []) ++
      (if a.feeRate ≠ d.feeRate then [2] else []) ++ (if a.holdLife ≠ d.holdLife then [3] else []) ++
      (if a.window ≠ d.window then [4] else []) ++ (if a.waitMode ≠ d.waitMode then [5] else []) ++
      (if a.cardLimit ≠ d.cardLimit then [6] else []) ++ (if a.stationCap ≠ d.stationCap then [7] else []) ++
      (if a.ceiling ≠ d.ceiling then [8] else []) ++ (if a.quiet ≠ d.quiet then [9] else []) ++
      (if a.tally ≠ d.tally then [10] else []) ++ (if a.divisor ≠ d.divisor then [11] else []) := by
  simp only [clampedMap, BitVec.getLsbD_or, getLsbD_changedBit _ _ hk, List.mem_append, mem_if_singleton, Bool.or_eq_true,
    Bool.and_eq_true, bne_iff_ne, decide_eq_true_eq]

/-! ### The map and the joining members -/

section Members
variable {p : ConfigParams} {s : State}

theorem toNat_own (h : p.station.toNat ≤ 62) : (p.station.setWidth 6 : Station).toNat = p.station.toNat := by
  rw [BitVec.toNat_setWidth]
  exact Nat.mod_eq_of_lt (by omega)

/-- The map asked for is the one sent within 1 to 62, or none; the own number joins it (R172). -/
theorem getLsbD_clampConfig_members (h1 : 1 ≤ p.station.toNat) (h2 : p.station.toNat ≤ 62) (st : Station) :
    (clampConfig (askedConfig p)).members.getLsbD st.toNat = true ↔ isStation st = true ∧
      (p.present.getLsbD 0 = true ∧ p.members.getLsbD st.toNat = true ∨ st.toNat = p.station.toNat) := by
  have hown : st.toNat = p.station.toNat → isStation st = true := fun h => isStation_iff.2 (h ▸ ⟨h1, h2⟩)
  simp only [clampConfig, askedConfig, isPresent, getLsbD_addTo, toNat_own h2, Bool.or_eq_true, decide_eq_true_eq]
  by_cases hp : p.present.getLsbD 0 = true
  · simp only [hp, if_true, getLsbD_mapBits, Bool.and_eq_true, true_and]
    tauto
  · simp only [hp, if_false, getLsbD_addTo, toNat_own h2, Bool.or_eq_true, decide_eq_true_eq, getLsbD_empty,
      Bool.false_eq_true]
    tauto

/-- The settled map: the clamped one and every station R90 and R171 name. -/
theorem getLsbD_settleConfig_members (hc : tablesCanonical s) (st : Station) :
    (settleConfig s p).members.getLsbD st.toNat = true ↔ isStation st = true ∧
      ((clampConfig (askedConfig p)).members.getLsbD st.toNat = true ∨ (∃ e ∈ s.dq.area.entries, cardHome e.card = st) ∨
        s.tu.round.sent.getLsbD st.toNat = true ∨ (figuresOf s st).isSome = true ∨ liveLine s st ≠ blankLine ∨
        closingLine s st ≠ blankLine) := by
  obtain ⟨hl, hcl, -⟩ := pairs_of_canonical hc
  obtain ⟨-, -, -, -, -, -, -, -, hf, -⟩ := hc
  have hhome : st.toNat ∈ s.dq.area.entries.map (fun e => (cardHome e.card).toNat) ↔
      ∃ e ∈ s.dq.area.entries, cardHome e.card = st := by
    simp only [List.mem_map, BitVec.toNat_inj]
  simp only [settleConfig, raiseConfig, givenMembers, getLsbD_mapBits, BitVec.getLsbD_or, getLsbD_setOf, Bool.and_eq_true,
    Bool.or_eq_true, decide_eq_true_eq, hhome, figuresOf, Table.find_isSome_iff hf, liveLine, closingLine,
    Table.get_ne_iff hl, Table.get_ne_iff hcl, or_assoc]
  exact and_comm

/-- The members that join the tallies-sent set (R171). -/
theorem getLsbD_joiningMembers (c : ConfigRecord) (st : Station) : (joiningMembers s c).getLsbD st.toNat = true ↔
    s.tu.round.day.isSome = true ∧ (s.tu.round.sent ≠ 0 ∨ s.tu.round.computed = true) ∧
      c.members.getLsbD st.toNat = true ∧ s.tp.config.members.getLsbD st.toNat = false ∧ st ≠ c.station := by
  have hst : st.toNat < 64 := st.isLt
  unfold joiningMembers
  split
  · next h =>
    simp only [Bool.and_eq_true, Bool.or_eq_true, decide_eq_true_eq] at h
    simp only [BitVec.getLsbD_and, BitVec.getLsbD_not, getLsbD_addTo, getLsbD_empty, hst, Bool.and_eq_true, Bool.not_eq_true',
      Bool.or_eq_false_iff, decide_eq_false_iff_not, decide_true, true_and, BitVec.toNat_inj, and_assoc, ne_eq, h.1, h.2]
  · next h =>
    simp only [Bool.and_eq_true, Bool.or_eq_true, decide_eq_true_eq] at h
    simp only [getLsbD_empty, Bool.false_eq_true, false_iff]
    tauto

/-- Every clamped field lies in its range (R172). -/
theorem configInRange_clampConfig (h1 : 1 ≤ p.station.toNat) (h2 : p.station.toNat ≤ 62) :
    configInRange (clampConfig (askedConfig p)) = true := by
  have hs : isStation (p.station.setWidth 6) = true := isStation_iff.2 (by rw [toNat_own h2]; exact ⟨h1, h2⟩)
  have hb : ∀ st : Station, isStation st = false → (clampConfig (askedConfig p)).members.getLsbD st.toNat = false :=
    fun st hst => Bool.eq_false_iff.2 fun hm => by
      rw [getLsbD_clampConfig_members h1 h2, hst] at hm
      cases hm.1
  have hb0 : (clampConfig (askedConfig p)).members.getLsbD 0 = false := hb 0 rfl
  have hb63 : (clampConfig (askedConfig p)).members.getLsbD 63 = false := hb 63 rfl
  simp only [configInRange, hb0, hb63, Bool.and_eq_true, decide_eq_true_eq, Bool.not_false, and_true]
  refine ⟨⟨⟨⟨⟨⟨⟨⟨⟨⟨⟨hs, ?_⟩, ?_⟩, ?_⟩, ?_⟩, ?_⟩, ?_⟩, ?_⟩, ?_⟩, ?_⟩, ?_⟩, ?_⟩
  · exact (clampTo_mem (lo := 0) _ (by decide)).2
  · exact (clampTo_mem (lo := 0) _ (by decide)).2
  · exact clampTo_mem _ (by decide)
  · exact clampTo_mem _ (by decide)
  · exact (clampTo_mem (lo := 0) _ (by decide)).2
  · exact (clampTo_mem (lo := 0) _ (by decide)).2
  · exact (clampTo_mem (lo := 0) _ (by decide)).2
  · exact clampTo_mem _ (by decide)
  · exact clampTo_mem _ (by decide)
  · exact clampTo_mem _ (by decide)
  · exact clampTo_mem _ (by decide)

end Members

/-- Settles O26, stage by stage. -/
theorem configClamping : Obligations.ConfigClamping := by
  intro p s a c d h1 h2 ha hc hd ht
  subst ha hc hd
  refine ⟨fun x hx => ?_, rfl, rfl, rfl, rfl, getLsbD_clampConfig_members h1 h2, rfl, ?_, ?_, ?_,
    getLsbD_settleConfig_members ht, fun k hk => getLsbD_clampedMap _ _ hk, getLsbD_joiningMembers _,
    configInRange_clampConfig h1 h2⟩
  · simp only [List.mem_cons, List.not_mem_nil, or_false] at hx
    rcases hx with rfl | rfl | rfl | rfl | rfl | rfl | rfl | rfl | rfl | rfl | rfl
    all_goals exact ⟨rfl, clampTo_asked _ (by decide) (by decide)⟩
  · simp only [settleConfig, raiseConfig, cardsBind, largestBalance, Bool.and_eq_true]
    rw [← foldl_max_eq]
  · simp only [settleConfig, raiseConfig, List.isEmpty_iff]
  · simp only [settleConfig, raiseConfig, largestOffline, List.isEmpty_iff]
    rw [foldl_max_eq _ (clampConfig (askedConfig p)).cardLimit]
    split
    · next he => simp [he]
    · rfl

end Sys2Proof.Machine

/-! ## The held law (R42) -/
namespace Sys2Proof.Machine

/-- Settles O5, by what each kind of step keeps. -/
theorem stepKeepsHeldTotals : Obligations.StepKeepsHeldTotals := fun _ _ => keptByKinds_held.step

end Sys2Proof.Machine

/-! ## Line requests at their takes (R37 to R57) -/
namespace Sys2Proof.Machine
open Safety

/-! ### The check sequence passed (R40) -/

section Checks
variable {s : State} {src : Station} {card : CardNo} {check : Check}

theorem routeAndMall_of_home (hm : isMember s src = true) (hh : cardHome card = ownStation s)
    (hc : cardMall card = s.tp.config.mall) : routeAndMall s src card = none := by
  simp [routeAndMall, routed, hm, hh, hc]

theorem cardChecks_of_issued (hi : isIssued (cardOf s (cardSerial card)) = true)
    (hg : cardGen card = (cardOf s (cardSerial card)).gen) (k : Option Check)
    (hk : ∀ c, k = some c → c = checkOf s (cardSerial card)) : cardChecks s card k = none := by
  cases k with
  | none => simp [cardChecks, hi, hg]
  | some c => simp [cardChecks, hi, hg, hk c rfl]

variable (h : cardPassesChecks s src card check)
include h

theorem routeAndMall_of_passes : routeAndMall s src card = none := by
  obtain ⟨hm, hh, hc, -, -, -⟩ := h
  exact routeAndMall_of_home hm hh hc

theorem cardChecks_of_passes : cardChecks s card (some check) = none := by
  obtain ⟨-, -, -, hi, hg, hk⟩ := h
  exact cardChecks_of_issued hi hg _ fun c hc => by cases hc; exact hk

theorem checkSequence_of_passes : checkSequence s src card (some check) = none := by
  rw [checkSequence, routeAndMall_of_passes h]
  exact cardChecks_of_passes h

theorem checkSequence_unchecked_of_passes : checkSequence s src card none = none := by
  rw [checkSequence, routeAndMall_of_passes h]
  obtain ⟨-, -, -, hi, hg, -⟩ := h
  exact cardChecks_of_issued hi hg none nofun

end Checks

/-! ### Grants (R42, R44) -/

/-- A grant of R44: the amount asked when it is available, or what is available of a split request. -/
def grantsOf (s : State) (serial amount grant : Nat) (split : Bool) : Prop :=
  amount ≤ available s serial ∧ grant = amount ∨
    0 < available s serial ∧ available s serial < amount ∧ split = true ∧ grant = available s serial

section Grants
variable {s : State} {serial amount grant i : Nat} {split : Bool}

theorem holdTests_passed (h1 : 1 ≤ amount) (h2 : amount ≤ s.tp.config.ceiling) (ha : reported s serial = .active) :
    holdTests s serial amount = none := by
  rw [holdTests, if_neg (by omega), ha]
  rfl

theorem grantTests_of_grants (hn : holdsOn s serial < 4) (hf : freeHold s = some i) (hg : grantsOf s serial amount grant split) :
    grantTests s serial amount split = .inr grant := by
  have hfull : ¬ (holdsOn s serial ≥ Config.holdsPerCard ∨ freeHold s = none) := by
    simp only [hf, reduceCtorEq, or_false, Config.holdsPerCard]
    omega
  rw [grantTests, if_neg hfull]
  rcases hg with ⟨ha, rfl⟩ | ⟨h0, hl, hs, rfl⟩
  · rw [if_pos ha]
  · rw [if_neg (by omega), if_pos ⟨h0, hs⟩]

theorem grantsOf_pos (h1 : 1 ≤ amount) (hg : grantsOf s serial amount grant split) : 0 < grant := by
  rcases hg with ⟨_, rfl⟩ | ⟨h0, _, _, rfl⟩
  · exact h1
  · exact h0

/-- A hold made for a grant: its entry is written with the next generation, and one held total rises (R42). A live entry and a
held total above 0 are listed, so the tables need not be in order. -/
theorem oneHold_of_make {t : State} {l : LiveHold} (h0 : 0 < l.grant)
    (e1 : t.ctu.holds = Table.set blankHold s.ctu.holds i ⟨(holdAt s i).gen + 1, some l⟩)
    (e2 : t.ctu.held = Table.set 0 s.ctu.held l.serial (heldOf s l.serial + l.grant)) :
    oneHold s t i ⟨(holdAt s i).gen + 1, some l⟩ l.serial (heldOf s l.serial + l.grant) := by
  have hne : (⟨(holdAt s i).gen + 1, some l⟩ : HoldEntry) ≠ blankHold := fun hc => by cases congrArg HoldEntry.live hc
  rw [Table.set, if_neg hne] at e1
  rw [Table.set, if_neg (by omega)] at e2
  refine ⟨?_, fun j hj => ?_, ?_, fun k hk => ?_⟩
  · rw [holdAt, e1, Table.get_put_self]
  · rw [holdAt, e1, Table.get, Table.find_put_of_ne _ _ _ _ hj]; rfl
  · rw [heldOf, e2, Table.get_put_self]
  · rw [heldOf, e2, Table.get, Table.find_put_of_ne _ _ _ _ hk]; rfl

/-- What is available once the hold is made. -/
theorem available_makeHold {l : LiveHold} (h0 : 0 < l.grant) :
    available (makeHold i l s) l.serial = available s l.serial - l.grant := by
  obtain ⟨-, -, hh, -⟩ := oneHold_of_make (s := s) (t := makeHold i l s) (i := i) (l := l) h0 rfl rfl
  show (cardOf s l.serial).balance - heldOf (makeHold i l s) l.serial = _
  rw [hh, available]
  omega

theorem holdAt_makeHold {l : LiveHold} (h0 : 0 < l.grant) :
    holdAt (makeHold i l s) i = ⟨(holdAt s i).gen + 1, some l⟩ := by
  obtain ⟨hh, -⟩ := oneHold_of_make (s := s) (t := makeHold i l s) (i := i) (l := l) h0 rfl rfl
  exact hh

end Grants

/-! ### HOLD (R44, R45) -/

/-- A HOLD that passes R44 makes its hold and is answered HOLD-OK (R45). -/
theorem decideHold_granted {s : State} {src : Station} {tag : Tag} {card : CardNo} {check : Check} {amount grant i : Nat}
    {split : Bool} (hh : isHalted s = false) (hc : cardPassesChecks s src card check) (h1 : 1 ≤ amount)
    (h2 : amount ≤ s.tp.config.ceiling) (ha : reported s (cardSerial card) = .active)
    (hr : repeatedHold s src tag (cardSerial card) = none) (hn : holdsOn s (cardSerial card) < 4) (hf : freeHold s = some i)
    (hg : grantsOf s (cardSerial card) amount grant split) :
    decideHold src tag card check amount split s =
      answerNow src (.holdOk tag (makeHoldId i ((holdAt s i).gen + 1)) (amount24 grant)
        (amount24 (available s (cardSerial card) - grant)) (decide (grant < amount)))
        (makeHold i ⟨cardSerial card, src, tag, grant, holdLifetime s, 0⟩ s) := by
  have h0 := grantsOf_pos h1 hg
  simp only [decideHold, checkSequence_of_passes hc, hh, holdTests_passed h1 h2 ha, hr, grantTests_of_grants hn hf hg, hf,
    Bool.false_eq_true, if_false, Option.getD_some, holdOkBody]
  have hv := available_makeHold (s := s) (i := i) (l := ⟨cardSerial card, src, tag, grant, holdLifetime s, 0⟩) h0
  simp only at hv
  rw [holdAt_makeHold h0, hv]

theorem isHalted_of_joined {s : State} (hj : s.tp.station = .joined) : isHalted s = false := by simp [isHalted, hj]

/-- Settles O43: the one hold is made on the state without the request. -/
theorem holdGranted : Obligations.HoldGranted := by
  intro s src tag card check amount split rest grant i ht hj hrx hc h1 h2 ha hr hn hf hg
  have he : exec .hold s = .next (settleWaiting (decideHold src tag card check amount.toNat split (popLine s))) := by
    show execHold s = _
    simp only [execHold, hrx, ht, if_true]
  rw [decideHold_granted (s := popLine s) (isHalted_of_joined hj) hc h1 h2 ha hr hn hf hg] at he
  exact ⟨_, he, oneHold_of_make (grantsOf_pos h1 hg) rfl rfl, ⟨rfl, rfl⟩, rfl, rfl, rfl⟩

end Sys2Proof.Machine

namespace Sys2Proof.Machine
open Safety

/-! ### The announcement (R37, R39) -/

/-- The state in which a line request is decided: the request gone, the turn passed, these frames queued in class 0. -/
def lineTaken (s : State) (frames : List (Station × Body)) : State :=
  { popLine s with lc := { s.lc with
      rx := s.lc.rx.tail
      tx0 := ⟨s.lc.tx0.frames ++ frames.map (fun f => ⟨f.1, f.2, 0, 0⟩), s.lc.tx0.reserved⟩ } }

/-- An unannounced request. -/
theorem lineTaken_nil (s : State) : lineTaken s [] = popLine s := by simp [lineTaken, popLine, leaveWaiting, passTurn]

/-- An announced request is decided with its STALL queued when one is due. -/
theorem announce_popLine {s : State} (hj : s.tp.station = .joined) (src : Station) (tag : Tag) :
    announce src tag (popLine s) = lineTaken s (stallFor s src tag) := by
  have hh : isHalted (popLine s) = false := isHalted_of_joined hj
  have hd : stallDue (popLine s) = decide (4 ≤ s.ps.queue.length) := by rw [stallDue, hh]; rfl
  rw [announce, hd, stallFor, lineTaken]
  by_cases hq : 4 ≤ s.ps.queue.length
  · simp only [hq, decide_true, if_true]
    rfl
  · simp only [hq, decide_false, Bool.false_eq_true, if_false, List.map_nil, List.append_nil]
    rfl

/-! ### Changes to a card (R47, R52 to R57) -/

/-- A balance lowered by no more than it holds lowers the liability total by the same (R23). -/
theorem liability_lowered {liability balance amount : Nat} (h : amount ≤ balance) :
    liability + (balance - amount) - balance = liability - amount := by omega

/-- A balance raised raises the liability total by the same (R23). -/
theorem liability_raised (liability balance amount : Nat) : liability + (balance + amount) - balance = liability + amount := by
  omega

/-- The area updates of a card, the capture log and a sender's line, as memory stands (R50, R57). -/
def captureUpdates (src : Station) (serial : Nat) (s : State) : List AreaUpdate :=
  [cardUpdate s serial, capUpdate s, liveUpdate s src]

section Changes
variable {s : State} {src : Station} {tag origTag : Tag} {kind : TagKind} {serial amount : Nat}

theorem cardOf_applyCapture (hr : Table.rises s.ctu.cards = true) :
    cardOf (applyCapture src tag kind serial amount s) serial =
      changeCard s serial ((cardOf s serial).balance - amount) ⟨src, tag, kind⟩ :=
  (cardOf_putCard serial _ hr serial).trans (if_pos rfl)

theorem cardOf_applyLoad (hr : Table.rises s.ctu.cards = true) :
    cardOf (applyLoad src tag serial amount s) serial =
      changeCard s serial ((cardOf s serial).balance + amount) ⟨src, tag, .load⟩ :=
  (cardOf_putCard serial _ hr serial).trans (if_pos rfl)

theorem cardOf_applyReturn (hr : Table.rises s.ctu.cards = true) :
    cardOf (applyReturn src tag origTag serial amount s) serial =
      changeCard s serial ((cardOf s serial).balance + amount) ⟨src, tag, .ret⟩ :=
  (cardOf_putCard serial _ hr serial).trans (if_pos rfl)

/-- The line counted reads as counted. -/
theorem liveLine_countAtHome {p : HomePos} (hr : Table.rises s.tu.live = true) :
    liveLine (countAtHome src p amount s) src = countHome (liveLine s src) p amount := by
  obtain ⟨h, -⟩ := oneLine_of_set (s := s) (t := countAtHome src p amount s) (st := src)
    (l := countHome (liveLine s src) p amount) hr rfl
  exact h

/-- The updates of a capture's record (R50, R57). -/
theorem captureUpdates_eq {r : CardRecord} {l : PairLine} (hc : Table.rises s.ctu.cards = true)
    (hl : Table.rises s.tu.live = true)
    (hr : r = changeCard s serial ((cardOf s serial).balance - amount) ⟨src, tag, kind⟩)
    (hl' : l = countHome (liveLine s src) .redemption amount) :
    captureUpdates src serial (applyCapture src tag kind serial amount s) =
    [.card serial r, .capLog (addCapture s.ctu.capLog ⟨src, tag, serial, amount, 0, liveDay s⟩), .pairLive src l] := by
  have hline : liveLine (applyCapture src tag kind serial amount s) src = _ := liveLine_countAtHome hl
  rw [captureUpdates, cardUpdate, cardOf_applyCapture hc, ← hr, liveUpdate, hline, hl']
  rfl

end Changes

/-! ### What a take from the line leaves -/

/-- A request taken from the line, these frames queued: beside cards, holds, captures and live lines nothing else is changed. -/
structure LineTook (s u : State) (frames : List (Station × Body)) : Prop where
  tp : u.tp = s.tp
  turn : u.ctu.turn = .till
  su : u.su = s.su
  dq : u.dq = s.dq
  lc : u.lc = { s.lc with
    rx := s.lc.rx.tail, tx0 := ⟨s.lc.tx0.frames ++ frames.map (fun f => ⟨f.1, f.2, 0, 0⟩), s.lc.tx0.reserved⟩ }
  ps : u.ps = { s.ps with waiting := u.ps.waiting }
  tu : u.tu = { s.tu with live := u.tu.live }
  choices : u.choices = s.choices
  pending : u.pending = s.pending

section Took
variable {s u : State} {frames : List (Station × Body)}

theorem lineTook_lineTaken (s : State) (frames : List (Station × Body)) : LineTook s (lineTaken s frames) frames :=
  ⟨rfl, rfl, rfl, rfl, rfl, rfl, rfl, rfl, rfl⟩

variable (h : LineTook s u frames)
include h

theorem LineTook.freeEntry (i : Nat) (l : LiveHold) : LineTook s (freeEntry i l u) frames :=
  ⟨h.tp, h.turn, h.su, h.dq, h.lc, h.ps, h.tu, h.choices, h.pending⟩

theorem LineTook.putCard (k : Nat) (r : CardRecord) : LineTook s (putCard k r u) frames :=
  ⟨h.tp, h.turn, h.su, h.dq, h.lc, h.ps, h.tu, h.choices, h.pending⟩

theorem LineTook.putCapLog (l : CapLog) : LineTook s (putCapLog l u) frames :=
  ⟨h.tp, h.turn, h.su, h.dq, h.lc, h.ps, h.tu, h.choices, h.pending⟩

theorem LineTook.countAtHome (st : Station) (p : HomePos) (n : Nat) : LineTook s (countAtHome st p n u) frames :=
  ⟨h.tp, h.turn, h.su, h.dq, h.lc, h.ps, by rw [countAtHome_tu, h.tu], h.choices, h.pending⟩

theorem LineTook.applyCapture (src : Station) (tag : Tag) (kind : TagKind) (serial n : Nat) :
    LineTook s (applyCapture src tag kind serial n u) frames := ((h.putCard ..).putCapLog _).countAtHome ..

theorem LineTook.applyLoad (src : Station) (tag : Tag) (serial n : Nat) : LineTook s (applyLoad src tag serial n u) frames :=
  (h.putCard ..).countAtHome ..

theorem LineTook.applyReturn (src : Station) (tag origTag : Tag) (serial n : Nat) :
    LineTook s (applyReturn src tag origTag serial n u) frames := ((h.putCard ..).putCapLog _).countAtHome ..

/-- Settled, it is a take without a record. -/
theorem LineTook.settled : tookLine s (settleWaiting u) frames 0 ∧ noRecord s (settleWaiting u) :=
  ⟨⟨h.lc, h.turn⟩, by rw [noRecord, settleWaiting_ps, h.ps]⟩

/-- Answered by a record, the take reserves the answer's place (R41). -/
theorem LineTook.tookLine_recorded (us : List AreaUpdate) (dst : Station) (b : Body) :
    tookLine s (settleWaiting (recordWithAnswer us dst b u)) frames 1 :=
  ⟨by rw [settleWaiting_lc, recordWithAnswer_lc, h.lc], h.turn⟩

/-- The record is the one record made. -/
theorem LineTook.oneRecord (us : List AreaUpdate) (dst : Station) (b : Body) :
    oneRecord s (settleWaiting (recordWithAnswer us dst b u)) us [.answer dst b] := by
  have hs : u.ps.store = s.ps.store := by rw [h.ps]
  have hq : u.ps.queue = s.ps.queue := by rw [h.ps]
  have ht : u.ps.timer = s.ps.timer := by rw [h.ps]
  show Ps.mk u.ps.store (u.ps.queue ++ _) (if u.ps.queue.isEmpty then _ else u.ps.timer) _ = _
  rw [hs, hq, ht]
  rfl

/-- Card Table Unit, Line Controller, Posting Store and live lines alone are changed. -/
theorem LineTook.frame (us : List AreaUpdate) (dst : Station) (b : Body) {t : State}
    (ht : t = settleWaiting (recordWithAnswer us dst b u)) :
    t = { s with ctu := t.ctu, lc := t.lc, ps := t.ps, tu := { s.tu with live := t.tu.live } } := by
  subst ht
  exact State.ext h.tp rfl h.su h.dq rfl rfl h.tu h.choices h.pending

/-- Where no line is counted, the Tally Unit is unchanged. -/
theorem LineTook.frame_of_tu (us : List AreaUpdate) (dst : Station) (b : Body) {t : State} (htu : u.tu = s.tu)
    (ht : t = settleWaiting (recordWithAnswer us dst b u)) : t = { s with ctu := t.ctu, lc := t.lc, ps := t.ps } := by
  subst ht
  exact State.ext h.tp rfl h.su h.dq rfl rfl htu h.choices h.pending

end Took

/-! ### CLAIM and DROP (R47 to R50) -/

/-- The live hold of a lawful state is covered by the card's balance (R16, R42). -/
theorem grant_le_balance {s : State} {i : Nat} {h : LiveHold} (hs : cardLaw s) (hl : (holdAt s i).live = some h) :
    h.grant ≤ (cardOf s h.serial).balance := by
  obtain ⟨⟨ho, -, hk⟩, -, -, hb⟩ := hs
  have hg := grantsOn_putHold (t := freeEntry i h s) (i := i) ho rfl h.serial
  rw [grantOf_none (e := ⟨_, none⟩) _ rfl, grantOf_some h.serial hl, if_pos rfl, ← hk] at hg
  have := (hb h.serial).1
  omega

section Claim
variable {s : State} {src : Station} {tag : Tag} {card : CardNo} {id : HoldId} {amount : Nat} {retry : Bool} {h : LiveHold}

/-- A CLAIM within the grant captures, and frees the entry in the same record (R47). -/
theorem decideClaim_captured (hh : isHalted s = false) (hr : routeAndMall s src card = none)
    (ha : captureRepeat s (cardSerial card) src tag = false) (hc : claimHold s src tag card id = some h) (h1 : 1 ≤ amount)
    (h2 : amount ≤ h.grant) :
    decideClaim src tag card id amount retry s =
      recordWithAnswer (captureUpdates src (cardSerial card)
        (applyCapture src tag .capture (cardSerial card) amount (freeEntry (holdIndex id) h s))) src
        (.claimOk tag (amount24 amount) (liveDay s) false)
        (applyCapture src tag .capture (cardSerial card) amount (freeEntry (holdIndex id) h s)) := by
  have h0 : ¬ amount = 0 := by omega
  simp only [decideClaim, hr, ha, hc, h0, hh, false_and, Bool.false_eq_true, if_false, if_neg (Nat.not_lt.2 h2)]
  rfl

/-- A CLAIM of an amount above 0 is announced. -/
theorem execClaim_taken {amount : Amount} {rest : List RxFrame} (ht : takesLine s = true)
    (hrx : s.lc.rx = ⟨src, .claim tag card id amount retry⟩ :: rest) (h1 : 1 ≤ amount.toNat) :
    exec .claim s =
      .next (settleWaiting (decideClaim src tag card id amount.toNat retry (announce src tag (popLine s)))) := by
  have h0 : (amount == 0) = false := by
    rw [beq_eq_false_iff_ne]
    rintro rfl
    simp at h1
  show execClaim s = _
  simp only [execClaim, hrx, ht, if_true, claimAsDrop, h0, Bool.false_and, Bool.false_eq_true, if_false]

/-- A DROP of a live hold (R49). -/
theorem decideDrop_named (hm : isMember s src = true) (hn : namedHold s id src tag = some h) :
    decideDrop src tag id s = freeEntry (holdIndex id) h s := by
  simp only [decideDrop, hm, if_true, hn]

end Claim

/-- Settles O44: the claim captures on the state with the entry freed. -/
theorem claimAndDrop : Obligations.ClaimAndDrop := by
  intro s src tag card id amount retry rest h r l ht hj hl hlive hm
  refine ⟨fun hrx hh hc ha hn h1 h2 hr hl' => ?_, fun hrx hn => ?_⟩
  · obtain ⟨hlv, hser⟩ := claimHold_live hn
    have hb : amount.toNat ≤ (cardOf s (cardSerial card)).balance := hser ▸ h2.trans (grant_le_balance hl hlv)
    have hrt : routeAndMall s src card = none := routeAndMall_of_home hm hh hc
    have hcards := rises_cards_of_cardLaw hl
    have he := execClaim_taken ht hrx h1
    rw [announce_popLine hj] at he
    rw [decideClaim_captured (s := lineTaken s _) (isHalted_of_joined hj) hrt ha hn h1 h2,
      captureUpdates_eq (s := freeEntry _ h (lineTaken s _)) hcards hlive hr hl', amount24_toNat] at he
    have htook := ((lineTook_lineTaken s (stallFor s src tag)).freeEntry (holdIndex id) h).applyCapture src tag .capture
      (cardSerial card) amount.toNat
    refine ⟨_, he, ?_, oneCard_of_set hcards (hr ▸ rfl), liability_lowered hb, rfl, oneLine_of_set hlive (hl' ▸ rfl),
      htook.tookLine_recorded .., htook.oneRecord .., htook.frame _ _ _ rfl⟩
    rw [← hser]
    exact oneHold_of_free _ h (rises_holds_of_heldLaw hl.1) (rises_held_of_heldLaw hl.1) rfl rfl
  · have he : exec .drop s = .next (settleWaiting (decideDrop src tag id (popLine s))) := by
      show execDrop s = _
      simp only [execDrop, hrx, ht, if_true]
    rw [decideDrop_named (s := popLine s) hm hn] at he
    have htook := (lineTook_lineTaken s []).freeEntry (holdIndex id) h
    rw [lineTaken_nil] at htook
    refine ⟨_, he, oneHold_of_free _ h (rises_holds_of_heldLaw hl.1) (rises_held_of_heldLaw hl.1) rfl rfl,
      htook.settled.1, htook.settled.2, rfl, rfl⟩

end Sys2Proof.Machine

namespace Sys2Proof.Machine
open Safety

/-! ### POST (R51, R52) -/

section Post
variable {s : State} {src : Station} {tag : Tag} {card : CardNo} {check : Check} {amount : Nat}

/-- What a POST on an ACTIVE card takes: what is available of the amount, FUNDS for a shortfall (R51). -/
theorem postTaking_of_active {serial : Nat} (ha : reported s serial = .active) (h1 : 1 ≤ amount) :
    postTaking s serial amount =
      (min amount (available s serial), if min amount (available s serial) = amount then .none else .funds) := by
  have h0 : ¬ amount = 0 := by omega
  simp only [postTaking, ha, h0, if_false]
  split
  · next h => rw [Nat.min_eq_left h, if_pos rfl]
  · next h => rw [Nat.min_eq_right (by omega), if_neg (by omega)]

/-- A POST that is no repeat and passes the checks is applied (R52). -/
theorem decidePost_applied {taken : Nat} (hh : isHalted s = false) (hc : cardPassesChecks s src card check)
    (hr : captureRepeat s (cardSerial card) src tag = false) (ha : reported s (cardSerial card) = .active) (h1 : 1 ≤ amount)
    (ht : taken = min amount (available s (cardSerial card))) :
    decidePost src tag card check amount s =
      applyPost src tag (cardSerial card) amount taken (if taken = amount then .none else .funds) s := by
  simp only [decidePost, routeAndMall_of_passes hc, hr, cardChecks_of_passes hc, hh, postTaking_of_active ha h1, ← ht,
    Bool.false_eq_true, if_false]

theorem shortfall24_of_le {asked taken : Nat} (h : taken ≤ asked) : shortfall24 asked taken = amount24 (asked - taken) :=
  if_pos h

/-- With something taken it is a capture. -/
theorem applyPost_pos {serial taken : Nat} {reason : Reason} (h : 0 < taken) (hle : taken ≤ amount) :
    applyPost src tag serial amount taken reason s =
      recordWithAnswer (captureUpdates src serial (applyCapture src tag .post serial taken s)) src
        (.postOk tag (amount24 taken) (amount24 (amount - taken)) reason (liveDay s) false)
        (applyCapture src tag .post serial taken s) := by
  simp only [applyPost, if_pos h, shortfall24_of_le hle]
  rfl

/-- With nothing taken the tag alone is kept. -/
theorem applyPost_zero {serial : Nat} {reason : Reason} {r : CardRecord} (hc : Table.rises s.ctu.cards = true)
    (hr : r = { cardOf s serial with tags := joinTag (cardOf s serial).tags ⟨src, tag, .post⟩ }) :
    applyPost src tag serial amount 0 reason s =
      recordWithAnswer [.card serial r] src (.postOk tag 0 (amount24 amount) reason (liveDay s) false) (putCard serial r s) := by
  have hk : cardOf (putCard serial r s) serial = r := (cardOf_putCard serial r hc serial).trans (if_pos rfl)
  simp only [applyPost, Nat.lt_irrefl, if_false, ← hr, cardUpdate, hk, shortfall24_of_le (Nat.zero_le _), Nat.sub_zero]
  rfl

end Post

/-- Settles O45, by whether anything is available. -/
theorem postTaken : Obligations.PostTaken := by
  intro s src tag card check amount day o rest taken r l ht hj hrx hc hrep ha hcards hlive h1 htaken
  have he : exec .post s =
      .next (settleWaiting (decidePost src tag card check amount.toNat (announce src tag (popLine s)))) := by
    show execPost s = _
    simp only [execPost, hrx, ht, if_true]
  rw [announce_popLine hj,
    decidePost_applied (s := lineTaken s _) (isHalted_of_joined hj) hc hrep ha h1 htaken] at he
  have hle : taken ≤ amount.toNat := htaken ▸ Nat.min_le_left ..
  have htook := lineTook_lineTaken s (stallFor s src tag)
  refine ⟨fun h0 hr hl => ?_, fun h0 hr => ?_⟩
  · have hb : taken ≤ (cardOf s (cardSerial card)).balance :=
      (htaken ▸ Nat.min_le_right ..).trans (Nat.sub_le _ _)
    rw [applyPost_pos h0 hle, captureUpdates_eq (s := lineTaken s _) hcards hlive hr hl] at he
    have htook := htook.applyCapture src tag .post (cardSerial card) taken
    exact ⟨_, he, oneCard_of_set hcards (hr ▸ rfl), liability_lowered hb, rfl, oneLine_of_set hlive (hl ▸ rfl), rfl, rfl,
      htook.tookLine_recorded .., htook.oneRecord .., htook.frame _ _ _ rfl⟩
  · subst h0
    rw [applyPost_zero (s := lineTaken s _) hcards hr, amount24_toNat, if_neg (by omega)] at he
    have htook := htook.putCard (cardSerial card) r
    have hliab : s.ctu.liability + r.balance - (cardOf s (cardSerial card)).balance = s.ctu.liability := by
      rw [hr]; exact Nat.add_sub_cancel ..
    refine ⟨_, he, oneCard_of_set hcards rfl, hliab, ?_, htook.tookLine_recorded .., htook.oneRecord ..,
      htook.frame_of_tu _ _ _ rfl rfl⟩
    show Ctu.mk _ _ _ _ (s.ctu.liability + r.balance - (cardOf s (cardSerial card)).balance) _ = _
    rw [hliab]
    rfl

/-! ### LOAD and RETURN (R53 to R55) -/

section LoadReturn
variable {s : State} {src : Station} {tag origTag : Tag} {card : CardNo} {check : Check} {serial amount : Nat}

theorem loadTests_passed (h1 : 1 ≤ amount) (ha : reported s serial = .active)
    (hc : (cardOf s serial).balance + amount ≤ s.tp.config.ceiling) : loadTests s serial amount = none := by
  rw [loadTests, if_neg (by omega), ha]
  exact if_neg (by omega)

theorem returnTests_passed {c : CapEntry} (h1 : 1 ≤ amount) (hf : findCapture s src origTag = some c) (hs : c.serial = serial)
    (hr : c.returned + amount ≤ c.amount) (ha : reported s serial ≠ .expired)
    (hc : (cardOf s serial).balance + amount ≤ s.tp.config.ceiling) : returnTests s src origTag serial amount = none := by
  have h0 : ¬ amount < 1 := by omega
  have h2 : ¬ c.amount < c.returned + amount := by omega
  have h3 : ¬ s.tp.config.ceiling < (cardOf s serial).balance + amount := by omega
  simp only [returnTests, h0, hf, hs, h2, ha, h3, ne_eq, not_true, if_false]

/-- The log after a return (R55). -/
theorem addReturn_eq (l : CapLog) (st : Station) (tag : Tag) (amount : Nat) :
    addReturn l st tag amount = { l with entries := l.entries.map fun e =>
      if e.station = st ∧ e.tag = tag then { e with returned := e.returned + amount } else e } := by
  simp only [addReturn, Bool.and_eq_true, beq_iff_eq]

/-- The updates of a load's record (R53, R57). -/
theorem loadUpdates_eq {r : CardRecord} {l : PairLine} (hc : Table.rises s.ctu.cards = true)
    (hl : Table.rises s.tu.live = true)
    (hr : r = changeCard s serial ((cardOf s serial).balance + amount) ⟨src, tag, .load⟩)
    (hl' : l = countHome (liveLine s src) .load amount) :
    [cardUpdate (applyLoad src tag serial amount s) serial, liveUpdate (applyLoad src tag serial amount s) src] =
    [.card serial r, .pairLive src l] := by
  have hline : liveLine (applyLoad src tag serial amount s) src = _ := liveLine_countAtHome hl
  rw [cardUpdate, cardOf_applyLoad hc, ← hr, liveUpdate, hline, hl']
  rfl

/-- The updates of a return's record (R55, R57). -/
theorem returnUpdates_eq {r : CardRecord} {l : PairLine} (hc : Table.rises s.ctu.cards = true)
    (hl : Table.rises s.tu.live = true)
    (hr : r = changeCard s serial ((cardOf s serial).balance + amount) ⟨src, tag, .ret⟩)
    (hl' : l = countHome (liveLine s src) .ret amount) :
    captureUpdates src serial (applyReturn src tag origTag serial amount s) =
    [.card serial r, .capLog (addReturn s.ctu.capLog src origTag amount), .pairLive src l] := by
  have hline : liveLine (applyReturn src tag origTag serial amount s) src = _ := liveLine_countAtHome hl
  rw [captureUpdates, cardUpdate, cardOf_applyReturn hc, ← hr, liveUpdate, hline, hl']
  rfl

/-- A LOAD that passes R53 is applied. -/
theorem decideLoad_applied {r : CardRecord} {l : PairLine} (hh : isHalted s = false) (hp : cardPassesChecks s src card check)
    (hk : kindRepeat s (cardSerial card) src tag .load = false) (h1 : 1 ≤ amount)
    (ha : reported s (cardSerial card) = .active)
    (hb : (cardOf s (cardSerial card)).balance + amount ≤ s.tp.config.ceiling) (hc : Table.rises s.ctu.cards = true)
    (hl : Table.rises s.tu.live = true)
    (hr : r = changeCard s (cardSerial card) ((cardOf s (cardSerial card)).balance + amount) ⟨src, tag, .load⟩)
    (hl' : l = countHome (liveLine s src) .load amount) :
    decideLoad src tag card check amount s = recordWithAnswer [.card (cardSerial card) r, .pairLive src l] src
      (.loadOk tag (amount24 r.balance) (liveDay s) false) (applyLoad src tag (cardSerial card) amount s) := by
  simp only [decideLoad, checkSequence_of_passes hp, hh, hk, loadTests_passed h1 ha hb, Bool.false_eq_true, if_false,
    loadUpdates_eq hc hl hr hl', cardOf_applyLoad hc, ← hr]

/-- A RETURN that passes R54 is applied. -/
theorem decideReturn_applied {r : CardRecord} {l : PairLine} (hh : isHalted s = false)
    (hp : cardPassesChecks s src card check) (hk : kindRepeat s (cardSerial card) src tag .ret = false)
    (ht : returnTests s src origTag (cardSerial card) amount = none) (hc : Table.rises s.ctu.cards = true)
    (hl : Table.rises s.tu.live = true)
    (hr : r = changeCard s (cardSerial card) ((cardOf s (cardSerial card)).balance + amount) ⟨src, tag, .ret⟩)
    (hl' : l = countHome (liveLine s src) .ret amount) :
    decideReturn src tag card origTag amount s = recordWithAnswer
      [.card (cardSerial card) r, .capLog (addReturn s.ctu.capLog src origTag amount), .pairLive src l] src
      (.returnOk tag (amount24 r.balance) (liveDay s)) (applyReturn src tag origTag (cardSerial card) amount s) := by
  rw [← returnUpdates_eq hc hl hr hl']
  simp only [decideReturn, checkSequence_unchecked_of_passes hp, hh, hk, ht, Bool.false_eq_true, if_false,
    cardOf_applyReturn hc, ← hr]
  rfl

end LoadReturn

/-- Settles O46: each is applied on the state with its STALL queued. -/
theorem loadAndReturnTaken : Obligations.LoadAndReturnTaken := by
  intro s src tag origTag card check amount rest c r l ht hj hp hcards hlive h1 hb
  have htook := lineTook_lineTaken s (stallFor s src tag)
  refine ⟨fun hrx hk ha hr hl => ?_, fun hrx hk hf hs hret ha hr hl => ?_⟩
  · have he : exec .loadFrame s =
        .next (settleWaiting (decideLoad src tag card check amount.toNat (announce src tag (popLine s)))) := by
      show execLoadFrame s = _
      simp only [execLoadFrame, hrx, ht, if_true]
    rw [announce_popLine hj,
      decideLoad_applied (s := lineTaken s _) (isHalted_of_joined hj) hp hk h1 ha hb hcards hlive hr hl] at he
    have htook := htook.applyLoad src tag (cardSerial card) amount.toNat
    refine ⟨_, he, oneCard_of_set hcards (hr ▸ rfl), oneLine_of_set hlive (hl ▸ rfl), htook.tookLine_recorded .., ?_,
      htook.oneRecord .., htook.frame _ _ _ rfl⟩
    exact congrArg (fun x => Ctu.mk _ _ _ _ x _) (liability_raised ..)
  · have he : exec .returnFrame s =
        .next (settleWaiting (decideReturn src tag card origTag amount.toNat (announce src tag (popLine s)))) := by
      show execReturnFrame s = _
      simp only [execReturnFrame, hrx, ht, if_true]
    rw [announce_popLine hj,
      decideReturn_applied (s := lineTaken s _) (isHalted_of_joined hj) hp hk (returnTests_passed h1 hf hs hret ha hb)
        hcards hlive hr hl] at he
    have htook := htook.applyReturn src tag origTag (cardSerial card) amount.toNat
    refine ⟨_, he, oneCard_of_set hcards (hr ▸ rfl), oneLine_of_set hlive (hl ▸ rfl), htook.tookLine_recorded .., ?_,
      htook.oneRecord .., htook.frame _ _ _ rfl⟩
    rw [← addReturn_eq]
    exact congrArg (fun x => Ctu.mk _ _ _ _ x _) (liability_raised ..)

/-! ### INQUIRE (R41, R56) -/

theorem attachYoungest_append (d : Dependent) (q : List PostingRecord) (r : PostingRecord) :
    attachYoungest d (q ++ [r]) = q ++ [{ r with deps := r.deps ++ [d] }] := by
  induction q with
  | nil => rfl
  | cons x q ih =>
    cases q with
    | nil => rfl
    | cons y q => exact congrArg (x :: ·) ih

/-- An INQUIRE that passes the check sequence is answered behind the records (R41). -/
theorem decideInquire_passed {s : State} {src : Station} {tag : Tag} {card : CardNo} {check : Check} {asked : Option Tag}
    (hh : isHalted s = false) (hp : cardPassesChecks s src card check) :
    decideInquire src tag card check asked s = answerAfterRecords src (.balance tag (reported s (cardSerial card))
      (amount24 (cardOf s (cardSerial card)).balance) (amount24 (available s (cardSerial card)))
      (tagResult s (cardSerial card) src asked)) s := by
  simp only [decideInquire, checkSequence_of_passes hp, hh, Bool.false_eq_true, if_false]

/-- Settles O47, by whether a record stands. -/
theorem inquireTaken : Obligations.InquireTaken := by
  intro s src tag card check asked rest b ht hj hrx hp hb
  have he : exec .inquireFrame s = .next (settleWaiting (decideInquire src tag card check asked (popLine s))) := by
    show execInquireFrame s = _
    simp only [execInquireFrame, hrx, ht, if_true]
  rw [decideInquire_passed (s := popLine s) (isHalted_of_joined hj) hp] at he
  change _ = Host.Outcome.next (settleWaiting (answerAfterRecords src (.balance tag (reported s (cardSerial card))
      (amount24 (cardOf s (cardSerial card)).balance) (amount24 (available s (cardSerial card)))
      (tagResult s (cardSerial card) src asked)) (popLine s))) at he
  rw [← hb] at he
  by_cases hq : s.ps.queue = []
  · have hn : answerAfterRecords src b (popLine s) = answerNow src b (popLine s) := if_pos (by rw [popLine]; simp [hq])
    rw [hn] at he
    refine ⟨_, he, rfl, rfl, fun _ => ⟨⟨rfl, rfl⟩, rfl⟩, fun q r hr => ?_⟩
    simp [hq] at hr
  · have hn : answerAfterRecords src b (popLine s) = { reserve .c0 (popLine s) with
        ps := { (popLine s).ps with queue := attachYoungest (.answer src b) s.ps.queue } } :=
      if_neg (by rw [popLine]; simpa using hq)
    rw [hn] at he
    refine ⟨_, he, rfl, rfl, fun h => absurd h hq, fun q r hr => ⟨⟨?_, rfl⟩, ?_⟩⟩
    · rw [List.map_nil, List.append_nil]
      rfl
    · rw [← attachYoungest_append, ← hr]
      rfl

end Sys2Proof.Machine

/-! ## Routing of the card commands (R58, R67, R170) -/
namespace Sys2Proof.Machine
open Safety

/-- A request with this card, and with this amount and this tag where its kind has them. -/
def asksFor (r : OpenReq) (card : CardNo) (amount : Nat) (tag : Tag) : Prop :=
  r.card = card ∧ (r.kind ≠ .inquire → r.amount = amount) ∧ (r.kind = .ret → r.origTag = tag)

theorem amountFits_eq_false_iff (s : State) (amount : Nat) :
    amountFits s amount = false ↔ ¬ (1 ≤ amount ∧ amount ≤ s.tp.config.ceiling) := by simp [amountFits]

theorem entryTagged_isSome (s : State) (tag : Tag) :
    (entryTagged s tag).isSome = s.dq.area.entries.any fun e => e.tag == tag := by
  rw [entryTagged, Bool.eq_iff_iff, List.find?_isSome, List.any_eq_true]

section Route
variable {s : State} {code seq : Byte} {own : LocalReq} {r : OpenReq} {card : CardNo} {amount : Nat} {tag : Tag}

/-- A request on another member's card: refused AMOUNT, for the Deferred Queue, or for the Slot Unit (R170). -/
theorem routeForeign_eq (ha : asksFor r card amount tag) : routeForeign r s =
    if r.kind ≠ .inquire ∧ ¬ (1 ≤ amount ∧ amount ≤ s.tp.config.ceiling) then refuse .amount s
    else if r.kind = .ret ∧ (s.dq.area.entries.any fun e => e.tag == tag) = true then handTo (.dqReturn card tag amount) s
    else handTo (.opening r) s := by
  obtain ⟨rfl, hn, ht⟩ := ha
  simp only [routeForeign, amountFits_eq_false_iff, entryTagged_isSome]
  by_cases hk : r.kind = .inquire
  · simp [hk]
  · rw [hn hk]
    by_cases hr : r.kind = .ret
    · rw [ht hr]
    · simp only [hr, false_and, if_false]

/-- A card command taken in JOINED goes where its card's home says (R170). -/
theorem routeCard_taken (h : idlePort s) (hj : s.tp.station = .joined) (ha : asksFor r card amount tag) :
    nextSatisfies (intake code seq (tested tradeTest (routeCard own r)) s) fun t => onlyPort s t ∧ t.tp =
      if cardHome card = ownStation s then handed s code seq (.localReq own)
      else if isMember s (cardHome card) = false then answered s (refusedAs code seq .noHome)
      else if r.kind ≠ .inquire ∧ ¬ (1 ≤ amount ∧ amount ≤ s.tp.config.ceiling) then answered s (refusedAs code seq .amount)
      else if r.kind = .ret ∧ (s.dq.area.entries.any fun e => e.tag == tag) = true then
        handed s code seq (.dqReturn card tag amount)
      else handed s code seq (.opening r) := by
  have hr : tested tradeTest (routeCard own r) (takeCommand code seq s) = _ := tested_trade code seq (routeCard own r) s hj
  have hc : r.card = card := ha.1
  have ho : ownStation (takeCommand code seq s) = ownStation s := rfl
  have hm : isMember (takeCommand code seq s) (cardHome card) = isMember s (cardHome card) := rfl
  simp only [routeCard, hc, ho, hm, routeForeign_eq ha, Bool.not_eq_true'] at hr
  split
  · next h1 => exact intake_handed h (by rw [hr, if_pos h1])
  next h1 =>
  rw [if_neg h1] at hr
  split
  · next h2 => exact intake_refused h (by rw [hr, if_pos h2])
  next h2 =>
  rw [if_neg h2] at hr
  split
  · next h3 => exact intake_refused h (hr.trans (if_pos h3))
  next h3 =>
  rw [if_neg (by exact h3)] at hr
  split
  · next h4 => exact intake_handed h (hr.trans (if_pos h4))
  · next h4 => exact intake_handed h (hr.trans (if_neg h4))

end Route

/-- Settles O38: the four commands are routed by one rule. -/
theorem cardCommandsRouted : Obligations.CardCommandsRouted := by
  intro s seq card check amount tag asked split offline h hj x hx
  simp only [List.mem_cons, List.not_mem_nil, or_false] at hx
  rcases hx with rfl | rfl | rfl | rfl
  · exact routeCard_taken h hj ⟨rfl, fun _ => rfl, nofun⟩
  · exact routeCard_taken h hj ⟨rfl, fun _ => rfl, nofun⟩
  · exact routeCard_taken h hj ⟨rfl, fun _ => rfl, fun _ => rfl⟩
  · exact routeCard_taken h hj ⟨rfl, fun hk => absurd rfl hk, nofun⟩

end Sys2Proof.Machine

/-! ## Local requests at their takes (R58 to R60) -/
namespace Sys2Proof.Machine
open Safety

/-! ### What a local take leaves -/

/-- A local request taken, with this many completion-queue places and this tag sequence: beside cards, holds, captures and live
lines nothing else is changed. -/
structure LocalTook (s u : State) (places : Nat) (g : Tag) : Prop where
  tp : u.tp = { s.tp with taken := s.tp.taken + places }
  turn : u.ctu.turn = .line
  su : u.su = { s.su with tagSeq := g }
  dq : u.dq = s.dq
  lc : u.lc = s.lc
  ps : u.ps = { s.ps with waiting := u.ps.waiting }
  tu : u.tu = { s.tu with live := u.tu.live }
  choices : u.choices = s.choices
  pending : u.pending = s.pending

section Took
variable {s u : State} {places : Nat} {g : Tag}

theorem localTook_popLocal (s : State) : LocalTook s (popLocal s) 0 s.su.tagSeq :=
  ⟨rfl, rfl, rfl, rfl, rfl, rfl, rfl, rfl, rfl⟩

theorem localTook_takePlaces (s : State) (n : Nat) : LocalTook s (takePlaces n (popLocal s)) n s.su.tagSeq :=
  ⟨rfl, rfl, rfl, rfl, rfl, rfl, rfl, rfl, rfl⟩

variable (h : LocalTook s u places g)
include h

theorem LocalTook.putTagSeq (g' : Tag) : LocalTook s (putTagSeq g' u) places g' :=
  ⟨h.tp, h.turn, by rw [putTagSeq_su, h.su], h.dq, h.lc, h.ps, h.tu, h.choices, h.pending⟩

theorem LocalTook.makeHold (i : Nat) (l : LiveHold) : LocalTook s (makeHold i l u) places g :=
  ⟨h.tp, h.turn, h.su, h.dq, h.lc, h.ps, h.tu, h.choices, h.pending⟩

theorem LocalTook.freeEntry (i : Nat) (l : LiveHold) : LocalTook s (freeEntry i l u) places g :=
  ⟨h.tp, h.turn, h.su, h.dq, h.lc, h.ps, h.tu, h.choices, h.pending⟩

theorem LocalTook.putCard (k : Nat) (r : CardRecord) : LocalTook s (putCard k r u) places g :=
  ⟨h.tp, h.turn, h.su, h.dq, h.lc, h.ps, h.tu, h.choices, h.pending⟩

theorem LocalTook.putCapLog (l : CapLog) : LocalTook s (putCapLog l u) places g :=
  ⟨h.tp, h.turn, h.su, h.dq, h.lc, h.ps, h.tu, h.choices, h.pending⟩

theorem LocalTook.countAtHome (st : Station) (p : HomePos) (n : Nat) : LocalTook s (countAtHome st p n u) places g :=
  ⟨h.tp, h.turn, h.su, h.dq, h.lc, h.ps, by rw [countAtHome_tu, h.tu], h.choices, h.pending⟩

theorem LocalTook.applyCapture (src : Station) (tag : Tag) (kind : TagKind) (serial n : Nat) :
    LocalTook s (applyCapture src tag kind serial n u) places g := ((h.putCard ..).putCapLog _).countAtHome ..

theorem LocalTook.applyLoad (src : Station) (tag : Tag) (serial n : Nat) :
    LocalTook s (applyLoad src tag serial n u) places g := (h.putCard ..).countAtHome ..

theorem LocalTook.applyReturn (src : Station) (tag origTag : Tag) (serial n : Nat) :
    LocalTook s (applyReturn src tag origTag serial n u) places g := ((h.putCard ..).putCapLog _).countAtHome ..

variable (us : List AreaUpdate) (n : Notice) (asked : Nat)

/-- The request is accepted with its places (R58). -/
theorem LocalTook.accepted : (settleWaiting (acceptLocal us n asked u)).tp = localAccepted s n.tag places := by
  rw [settleWaiting_tp, acceptLocal, accept_tp, makeRecord_tp, h.tp]
  rfl

theorem LocalTook.tagSeq : (settleWaiting (acceptLocal us n asked u)).su = { s.su with tagSeq := g } := h.su

/-- Its notice waits on its one record (R58). -/
theorem LocalTook.oneRecord : oneRecord s (settleWaiting (acceptLocal us n asked u)) us [.placed n asked] := by
  have hs : u.ps.store = s.ps.store := by rw [h.ps]
  have hq : u.ps.queue = s.ps.queue := by rw [h.ps]
  have ht : u.ps.timer = s.ps.timer := by rw [h.ps]
  show Ps.mk u.ps.store (u.ps.queue ++ _) (if u.ps.queue.isEmpty then _ else u.ps.timer) _ = _
  rw [hs, hq, ht]
  rfl

/-- Till Port, Card Table Unit, tag sequence, Posting Store and live lines alone are changed. -/
theorem LocalTook.frame {t : State} (ht : t = settleWaiting (acceptLocal us n asked u)) :
    t = { s with tp := t.tp, ctu := t.ctu, su := t.su, ps := t.ps, tu := { s.tu with live := t.tu.live } } := by
  subst ht
  exact State.ext rfl rfl rfl h.dq h.lc rfl h.tu h.choices h.pending

/-- Where no line is counted, the Tally Unit is unchanged. -/
theorem LocalTook.frame_of_tu {t : State} (htu : u.tu = s.tu) (ht : t = settleWaiting (acceptLocal us n asked u)) :
    t = { s with tp := t.tp, ctu := t.ctu, su := t.su, ps := t.ps } := by
  subst ht
  exact State.ext rfl rfl rfl h.dq h.lc rfl htu h.choices h.pending

/-- Where no tag is given, the Slot Unit is unchanged. -/
theorem LocalTook.frame_of_su {t : State} (hsu : u.su = s.su) (ht : t = settleWaiting (acceptLocal us n asked u)) :
    t = { s with tp := t.tp, ctu := t.ctu, ps := t.ps, tu := { s.tu with live := t.tu.live } } := by
  subst ht
  exact State.ext rfl rfl hsu h.dq h.lc rfl h.tu h.choices h.pending

end Took

/-- The Card Table Unit takes the local request in hand. -/
theorem execLocalRequestTake_taken {s : State} {r : LocalReq} (ht : takesLocal s = true)
    (hh : s.tp.hand = some (.localReq r)) : exec .localRequestTake s = .next (settleWaiting (takeLocal r (popLocal s))) := by
  show execLocalRequestTake s = _
  simp only [execLocalRequestTake, hh, ht, if_true]

/-! ### The requests accepted -/

section Accepted
variable {s : State} {card : CardNo} {check : Check} {amount : Nat} {tag origTag : Tag}

theorem localChecks_passed (hm : cardMall card = s.tp.config.mall) (hi : isIssued (cardOf s (cardSerial card)) = true)
    (hg : cardGen card = (cardOf s (cardSerial card)).gen) (k : Option Check)
    (hk : ∀ c, k = some c → c = checkOf s (cardSerial card)) : localChecks s card k = none := by
  rw [localChecks, if_neg (not_not.2 hm)]
  exact cardChecks_of_issued hi hg k hk

/-- A local REDEEM makes its hold with two places (R59). -/
theorem takeLocalRedeem_granted {grant i : Nat} {split : Bool} (hc : localChecks s card (some check) = none)
    (ht : holdTests s (cardSerial card) amount = none) (hf : freeHold s = some i)
    (hgt : grantTests s (cardSerial card) amount split = .inr grant) (h0 : 0 < grant) (hp : 2 ≤ sparePlaces s) :
    takeLocalRedeem card check amount split s = acceptLocal [.tagSeq (nextTag s)]
      { plainNotice (nextTag s) card .granted with
        amountA := grant, amountB := available s (cardSerial card) - grant, isPartial := decide (grant < amount) } amount
      (putTagSeq (nextTag s)
        (makeHold i ⟨cardSerial card, ownStation s, nextTag s, grant, holdLifetime s, 2⟩ (takePlaces 2 s))) := by
  have hv : available (makeHold i ⟨cardSerial card, ownStation s, nextTag s, grant, holdLifetime s, 2⟩ (takePlaces 2 s))
      (cardSerial card) = available s (cardSerial card) - grant := available_makeHold (s := takePlaces 2 s) h0
  simp only [takeLocalRedeem, hc, ht, hgt, hf, Option.orElse_none, Nat.not_lt.2 hp, if_false, Option.getD_some]
  rw [← hv]
  rfl

/-- A local LOAD is applied (R60). -/
theorem takeLocalLoad_applied {r : CardRecord} {l : PairLine} (hc : localChecks s card (some check) = none)
    (ht : loadTests s (cardSerial card) amount = none) (hp : 1 ≤ sparePlaces s) (hcards : Table.rises s.ctu.cards = true)
    (hlive : Table.rises s.tu.live = true)
    (hr : r = changeCard s (cardSerial card) ((cardOf s (cardSerial card)).balance + amount) ⟨ownStation s, nextTag s, .load⟩)
    (hl : l = countHome (liveLine s (ownStation s)) .load amount) :
    takeLocalLoad card check amount s =
      acceptLocal [.card (cardSerial card) r, .pairLive (ownStation s) l, .tagSeq (nextTag s)]
        { plainNotice (nextTag s) card .loaded with amountA := amount, amountB := r.balance, day := liveDay s } amount
        (putTagSeq (nextTag s) (applyLoad (ownStation s) (nextTag s) (cardSerial card) amount (takePlaces 1 s))) := by
  have hu := congrArg (· ++ [AreaUpdate.tagSeq (nextTag s)]) (loadUpdates_eq (s := takePlaces 1 s) hcards hlive hr hl)
  have hk : cardOf (applyLoad (ownStation s) (nextTag s) (cardSerial card) amount (takePlaces 1 s)) (cardSerial card) = r :=
    (cardOf_applyLoad (s := takePlaces 1 s) hcards).trans hr.symm
  simp only [List.cons_append, List.nil_append] at hu
  simp only [takeLocalLoad, hc, ht, Option.orElse_none, Nat.not_lt.2 hp, if_false]
  rw [← hu, ← hk]
  rfl

/-- A local RETURN is applied (R60). -/
theorem takeLocalReturn_applied {r : CardRecord} {l : PairLine} (hc : localChecks s card none = none)
    (ht : returnTests s (ownStation s) origTag (cardSerial card) amount = none) (hp : 1 ≤ sparePlaces s)
    (hcards : Table.rises s.ctu.cards = true) (hlive : Table.rises s.tu.live = true)
    (hr : r = changeCard s (cardSerial card) ((cardOf s (cardSerial card)).balance + amount) ⟨ownStation s, nextTag s, .ret⟩)
    (hl : l = countHome (liveLine s (ownStation s)) .ret amount) :
    takeLocalReturn card origTag amount s =
      acceptLocal [.card (cardSerial card) r, .capLog (addReturn s.ctu.capLog (ownStation s) origTag amount),
          .pairLive (ownStation s) l, .tagSeq (nextTag s)]
        { plainNotice (nextTag s) card .returned with amountA := amount, amountB := r.balance, day := liveDay s } amount
        (putTagSeq (nextTag s)
          (applyReturn (ownStation s) (nextTag s) origTag (cardSerial card) amount (takePlaces 1 s))) := by
  have hu := congrArg (· ++ [AreaUpdate.tagSeq (nextTag s)])
    (returnUpdates_eq (s := takePlaces 1 s) (origTag := origTag) hcards hlive hr hl)
  have hk : cardOf (applyReturn (ownStation s) (nextTag s) origTag (cardSerial card) amount (takePlaces 1 s))
      (cardSerial card) = r := (cardOf_applyReturn (s := takePlaces 1 s) hcards).trans hr.symm
  simp only [captureUpdates, List.cons_append, List.nil_append, takePlaces_ctu] at hu
  simp only [takeLocalReturn, hc, ht, Option.orElse_none, Nat.not_lt.2 hp, if_false]
  rw [← hu, ← hk]
  rfl

/-- A local INQUIRE is answered on a record of TAGSEQ (R60). -/
theorem takeLocalInquire_answered {asked : Option Tag} (hc : localChecks s card (some check) = none)
    (hp : 1 ≤ sparePlaces s) :
    takeLocalInquire card check asked s = acceptLocal [.tagSeq (nextTag s)]
      { plainNotice (nextTag s) card .balance with
        cardState := reported s (cardSerial card), amountA := (cardOf s (cardSerial card)).balance
        amountB := available s (cardSerial card), result := tagResult s (cardSerial card) (ownStation s) asked } 0
      (putTagSeq (nextTag s) (takePlaces 1 s)) := by
  simp only [takeLocalInquire, hc, Nat.not_lt.2 hp, if_false]

/-- A local CONFIRM claims its hold (R59). -/
theorem takeLocalConfirm_captured {i : Nat} {h : LiveHold} {r : CardRecord} {l : PairLine}
    (hh : localHold s tag = some (i, h)) (h1 : 1 ≤ amount) (h2 : amount ≤ h.grant) (hcards : Table.rises s.ctu.cards = true)
    (hlive : Table.rises s.tu.live = true)
    (hr : r = changeCard s h.serial ((cardOf s h.serial).balance - amount) ⟨ownStation s, tag, .capture⟩)
    (hl : l = countHome (liveLine s (ownStation s)) .redemption amount) :
    takeLocalConfirm tag amount s =
      acceptLocal [.card h.serial r, .capLog (addCapture s.ctu.capLog ⟨ownStation s, tag, h.serial, amount, 0, liveDay s⟩),
          .pairLive (ownStation s) l]
        { plainNotice tag (cardNumber s h.serial) .captured with amountA := amount, day := liveDay s } amount
        (applyCapture (ownStation s) tag .capture h.serial amount (freeEntry i h s)) := by
  have hu := captureUpdates_eq (s := freeEntry i h s) hcards hlive hr hl
  have h0 : ¬ (amount < 1 ∨ h.grant < amount) := by omega
  simp only [takeLocalConfirm, hh, if_neg h0]
  exact congrArg (fun us => acceptLocal us _ _ _) hu

/-- A local CANCEL frees its hold, CANCELLED in the second place (R59). -/
theorem takeLocalCancel_freed {i : Nat} {h : LiveHold} (hh : localHold s tag = some (i, h)) :
    takeLocalCancel tag s = accept tag []
      (secondNotice h { plainNotice tag (cardNumber s h.serial) .cancelled with amountA := h.grant } 0 (freeEntry i h s)) := by
  simp only [takeLocalCancel, hh]

theorem localHold_tag {i : Nat} {h : LiveHold} (hh : localHold s tag = some (i, h)) : h.tag = tag := by
  simpa using List.find?_some hh

end Accepted

/-! ### The takes -/

section Takes
variable {s : State} {card : CardNo} {check : Check} {amount : Nat} {origTag : Tag}

theorem localRedeem_taken {grant i : Nat} {split : Bool} (ht : takesLocal s = true)
    (hh : s.tp.hand = some (.localReq (.redeem card check amount split))) (hc : localChecks s card (some check) = none)
    (h1 : 1 ≤ amount) (h2 : amount ≤ s.tp.config.ceiling)
    (ha : reported s (cardSerial card) = .active) (hn : holdsOn s (cardSerial card) < 4) (hf : freeHold s = some i)
    (hgr : grantsOf s (cardSerial card) amount grant split) (hp : 2 ≤ sparePlaces s) :
    nextSatisfies (exec .localRequestTake s) fun t =>
      oneHold s t i ⟨(holdAt s i).gen + 1,
        some ⟨cardSerial card, ownStation s, nextTag s, grant, s.tp.config.holdLife * 1000, 2⟩⟩
        (cardSerial card) (heldOf s (cardSerial card) + grant) ∧
      t.ctu = { s.ctu with holds := t.ctu.holds, held := t.ctu.held, turn := .line } ∧
      t.su = { s.su with tagSeq := nextTag s } ∧ t.tp = localAccepted s (nextTag s) 2 ∧
      oneRecord s t [.tagSeq (nextTag s)] [.placed { plainNotice (nextTag s) card .granted with
        amountA := grant, amountB := available s (cardSerial card) - grant, isPartial := decide (grant < amount) } amount] ∧
      t = { s with tp := t.tp, ctu := t.ctu, su := t.su, ps := t.ps } := by
  have he := execLocalRequestTake_taken ht hh
  have h0 := grantsOf_pos h1 hgr
  rw [takeLocal, takeLocalRedeem_granted (s := popLocal s) hc (holdTests_passed h1 h2 ha) hf
    (grantTests_of_grants hn hf hgr) h0 hp] at he
  have htook := ((localTook_takePlaces s 2).makeHold i
    ⟨cardSerial card, ownStation s, nextTag s, grant, holdLifetime s, 2⟩).putTagSeq (nextTag s)
  exact ⟨_, he, oneHold_of_make h0 rfl rfl, rfl, htook.tagSeq .., htook.accepted .., htook.oneRecord ..,
    htook.frame_of_tu _ _ _ rfl rfl⟩

/-- CANCELLED enters the second place, or is attached behind the GRANTED that has not entered (R59). -/
theorem localCancel_taken {tag : Tag} {i : Nat} {h : LiveHold} {n : Notice} (q q' : List PostingRecord) (x : PostingRecord)
    (ht : takesLocal s = true) (hh : s.tp.hand = some (.localReq (.cancel tag))) (hr : Table.rises s.ctu.holds = true)
    (hr' : Table.rises s.ctu.held = true) (hlh : localHold s tag = some (i, h))
    (hn : n = { plainNotice tag (cardNumber s h.serial) .cancelled with amountA := h.grant }) :
    nextSatisfies (exec .localRequestTake s) fun t =>
      oneHold s t i ⟨(holdAt s i).gen, none⟩ h.serial (heldOf s h.serial - h.grant) ∧
      t.ctu = { s.ctu with holds := t.ctu.holds, held := t.ctu.held, turn := .line } ∧
      ((∀ y ∈ s.ps.queue, grantedIn tag y = false) → noRecord s t ∧ t.tp = { localAccepted s tag 0 with
        notices := s.tp.notices ++ [n], taken := s.tp.taken - 1, events := s.tp.events ||| 0x01 }) ∧
      (s.ps.queue = q ++ x :: q' → (∀ y ∈ q, grantedIn tag y = false) → grantedIn tag x = true →
        t.tp = localAccepted s tag 0 ∧ t.ps = { s.ps with
          queue := q ++ { x with deps := x.deps ++ [.placed n 0] } :: q', waiting := t.ps.waiting }) ∧
      t = { s with tp := t.tp, ctu := t.ctu, ps := t.ps } := by
  have he := execLocalRequestTake_taken ht hh
  have hnow : takeLocalCancel tag (popLocal s) = accept tag [] (secondNotice h n 0 (freeEntry i h (popLocal s))) := by
    rw [takeLocalCancel_freed (s := popLocal s) hlh, hn]
    rfl
  rw [takeLocal, hnow, secondNotice_cases, localHold_tag hlh] at he
  by_cases hg : s.ps.queue.any (grantedIn tag) = true
  · rw [if_pos (by exact hg)] at he
    refine ⟨_, he, oneHold_of_free i h hr hr' rfl rfl, rfl, fun hno => ?_, fun hq h1 h2 => ⟨rfl, ?_⟩, rfl⟩
    · obtain ⟨y, hy, hgy⟩ := List.any_eq_true.1 hg
      rw [hno y hy] at hgy
      cases hgy
    · rw [← attachAfterGranted_append tag _ q q' x h1 h2, ← hq]
      rfl
  · rw [if_neg (by exact hg)] at he
    refine ⟨_, he, oneHold_of_free i h hr hr' rfl rfl, rfl, fun _ => ⟨rfl, rfl⟩, fun hq _ h2 => absurd ?_ hg, rfl⟩
    rw [hq]
    simp [h2]

/-- A request whose hold has ended (R59). -/
theorem localRequest_noSlot {r : LocalReq} (ht : takesLocal s = true) (hh : s.tp.hand = some (.localReq r))
    (hr : takeLocal r (popLocal s) = refuse .noSlot (popLocal s)) :
    nextSatisfies (exec .localRequestTake s) fun t =>
      t.tp = { s.tp with
        busy := false, hand := none
        response := { s.tp.response with result := .refused, reason := .noSlot, tag := 0, data := [] } } ∧
      noRecord s t ∧ t = { s with tp := t.tp, ctu := { s.ctu with turn := .line }, ps := t.ps } := by
  have he := execLocalRequestTake_taken ht hh
  rw [hr] at he
  exact ⟨_, he, rfl, rfl, rfl⟩

theorem takeLocalConfirm_noSlot {tag : Tag} (amount : Nat) (hlh : localHold s tag = none) :
    takeLocalConfirm tag amount (popLocal s) = refuse .noSlot (popLocal s) := by
  have hp : localHold (popLocal s) tag = none := hlh
  simp only [takeLocalConfirm, hp]

theorem takeLocalCancel_noSlot {tag : Tag} (hlh : localHold s tag = none) :
    takeLocalCancel tag (popLocal s) = refuse .noSlot (popLocal s) := by
  have hp : localHold (popLocal s) tag = none := hlh
  simp only [takeLocalCancel, hp]

end Takes

/-- Settles O42, request by request. -/
theorem localRedeemTaken : Obligations.LocalRedeemTaken := by
  refine ⟨fun s card check amount grant i split ht hh hm hi hg hk h1 h2 ha hn hf hgr hp => ?_,
    fun s card check amount origTag asked c r l ht hm hi hg hp hcards hlive => ⟨?_, ?_, ?_⟩,
    fun s tag amount i h r l n q q' x ht hl hlive => ⟨?_, ?_, ?_⟩⟩
  · exact localRedeem_taken ht hh (localChecks_passed hm hi hg _ fun c hc => by cases hc; exact hk) h1 h2 ha hn hf hgr hp
  · intro hh hk h1 ha hb hr hl
    have he := execLocalRequestTake_taken ht hh
    have hc := localChecks_passed hm hi hg (some check) fun c hc => by cases hc; exact hk
    rw [takeLocal, takeLocalLoad_applied (s := popLocal s) hc (loadTests_passed h1 ha hb) hp hcards hlive hr hl] at he
    have htook := ((localTook_takePlaces s 1).applyLoad (ownStation s) (nextTag s) (cardSerial card) amount).putTagSeq
      (nextTag s)
    refine ⟨_, he, oneCard_of_set hcards (hr ▸ rfl), oneLine_of_set hlive (hl ▸ rfl), ?_, htook.tagSeq .., htook.accepted ..,
      htook.oneRecord .., htook.frame _ _ _ rfl⟩
    exact congrArg (fun x => Ctu.mk _ _ _ _ x _) (liability_raised ..)
  · intro hh h1 hf hs hret ha hb hr hl
    have he := execLocalRequestTake_taken ht hh
    have hc := localChecks_passed hm hi hg none nofun
    rw [takeLocal, takeLocalReturn_applied (s := popLocal s) hc (returnTests_passed h1 hf hs hret ha hb) hp hcards hlive
      hr hl] at he
    have htook := ((localTook_takePlaces s 1).applyReturn (ownStation s) (nextTag s) origTag (cardSerial card)
      amount).putTagSeq (nextTag s)
    refine ⟨_, he, oneCard_of_set hcards (hr ▸ rfl), oneLine_of_set hlive (hl ▸ rfl), ?_, htook.tagSeq .., htook.accepted ..,
      htook.oneRecord .., htook.frame _ _ _ rfl⟩
    rw [← addReturn_eq]
    exact congrArg (fun x => Ctu.mk _ _ _ _ x _) (liability_raised ..)
  · intro hh hk
    have he := execLocalRequestTake_taken ht hh
    have hc := localChecks_passed hm hi hg (some check) fun c hc => by cases hc; exact hk
    rw [takeLocal, takeLocalInquire_answered (s := popLocal s) hc hp] at he
    have htook := (localTook_takePlaces s 1).putTagSeq (nextTag s)
    exact ⟨_, he, rfl, htook.tagSeq .., htook.accepted .., htook.oneRecord .., htook.frame_of_tu _ _ _ rfl rfl⟩
  · intro hh hlh h1 h2 hr hl'
    have he := execLocalRequestTake_taken ht hh
    have hcards := rises_cards_of_cardLaw hl
    have hb := h2.trans (grant_le_balance hl (localHold_live (rises_holds_of_heldLaw hl.1) hlh))
    rw [takeLocal, takeLocalConfirm_captured (s := popLocal s) hlh h1 h2 hcards hlive hr hl'] at he
    have htook := ((localTook_popLocal s).freeEntry i h).applyCapture (ownStation s) tag .capture h.serial amount
    exact ⟨_, he, oneHold_of_free i h (rises_holds_of_heldLaw hl.1) (rises_held_of_heldLaw hl.1) rfl rfl,
      oneCard_of_set hcards (hr ▸ rfl), liability_lowered hb, rfl, rfl, oneLine_of_set hlive (hl' ▸ rfl),
      htook.accepted .., htook.oneRecord .., htook.frame_of_su _ _ _ rfl rfl⟩
  · intro hh hlh hn
    exact localCancel_taken q q' x ht hh (rises_holds_of_heldLaw hl.1) (rises_held_of_heldLaw hl.1) hlh hn
  · rintro (hh | hh) hlh
    · exact localRequest_noSlot ht hh (takeLocalConfirm_noSlot amount hlh)
    · exact localRequest_noSlot ht hh (takeLocalCancel_noSlot hlh)

end Sys2Proof.Machine

/-! ## The timers (R43, R69, R75, R91, R94, R144, R148, R184) -/
namespace Sys2Proof.Machine
open Safety

/-! ### The tick (R184) -/

section Map
variable {α β : Type}

theorem Table.find_map (f : α → β) (t : Table α) (k : Nat) :
    Table.find (t.map fun e => (e.1, f e.2)) k = (Table.find t k).map f := by
  induction t with
  | nil => rfl
  | cons e t ih =>
    rw [List.map_cons, Table.find_cons, Table.find_cons, ih]
    split_ifs <;> rfl

/-- A change that keeps the default changes what every index reads as. -/
theorem Table.get_map (f : α → α) {d : α} (hd : f d = d) (t : Table α) (k : Nat) :
    Table.get d (t.map fun e => (e.1, f e.2)) k = f (Table.get d t k) := by
  rw [Table.get, Table.get, Table.find_map]
  cases Table.find t k with
  | none => exact hd.symm
  | some v => rfl

end Map

theorem holdAt_tick (s : State) (i : Nat) : holdAt (tick s) i = tickedHold (holdAt s i) := Table.get_map tickedHold rfl _ _

theorem slotAt_tick (s : State) (n : Nat) : slotAt (tick s) n = (slotAt s n).map fun sl =>
    { sl with reply := fall sl.reply, holdTimer := fall sl.holdTimer } :=
  Table.find_map (fun sl : Slot => ({ sl with reply := fall sl.reply, holdTimer := fall sl.holdTimer } : Slot)) _ _

theorem backoffOf_tick (s : State) (st : Station) :
    backoffOf (tick s) st = { backoffOf s st with time := fall (backoffOf s st).time } :=
  Table.get_map (fun b : BackoffLine => ({ b with time := fall b.time } : BackoffLine)) rfl _ _

theorem clock_of_lt {s : State} (h : s.tp.refCount + 1 < s.tp.divisor) :
    clock s = { s with tp := { s.tp with refCount := s.tp.refCount + 1 } } := if_pos h

theorem clock_of_le {s : State} (h : s.tp.divisor ≤ s.tp.refCount + 1) :
    clock s = tick { s with tp := { s.tp with refCount := 0 } } := if_neg (Nat.not_lt.2 h)

/-! ### Holds (R43, R59) -/

/-- The second notice of a local hold: it enters at once, or is attached behind its GRANTED (R59). -/
theorem secondNotice_entered {s : State} {h : LiveHold} (n : Notice) (asked : Nat)
    (hno : ∀ y ∈ s.ps.queue, grantedIn h.tag y = false) : secondNotice h n asked s = enterPlaced n s := by
  rw [secondNotice_cases, if_neg]
  rw [List.any_eq_true]
  rintro ⟨y, hy, hg⟩
  rw [hno y hy] at hg
  cases hg

theorem secondNotice_attached {s : State} {h : LiveHold} (n : Notice) (asked : Nat) {q q' : List PostingRecord}
    {x : PostingRecord} (hq : s.ps.queue = q ++ x :: q') (h1 : ∀ y ∈ q, grantedIn h.tag y = false)
    (h2 : grantedIn h.tag x = true) : secondNotice h n asked s = { s with ps := { s.ps with
      queue := q ++ { x with deps := x.deps ++ [.placed n asked] } :: q' } } := by
  rw [secondNotice_cases, if_pos (by rw [hq]; simp [h2]), ← attachAfterGranted_append h.tag _ q q' x h1 h2, ← hq]

/-- What the second notice can change. -/
theorem secondNotice_frame (h : LiveHold) (n : Notice) (asked : Nat) (s : State) :
    secondNotice h n asked s = { s with
      tp := (secondNotice h n asked s).tp, ps := { s.ps with queue := (secondNotice h n asked s).ps.queue } } := by
  rw [secondNotice_cases]
  split <;> rfl

theorem holdExpiry_taken {s : State} {i : Fin 256} {h : LiveHold} {n : Notice} (q q' : List PostingRecord) (x : PostingRecord)
    (hl : (holdAt s i.val).live = some h) (h0 : h.life = 0) (ho : isOpen s = true) (hr : Table.rises s.ctu.holds = true)
    (hr' : Table.rises s.ctu.held = true)
    (hn : n = { plainNotice h.tag (cardNumber s h.serial) .expired with amountA := h.grant }) :
    nextSatisfies (exec (.holdExpiry i) s) fun t =>
      oneHold s t i.val ⟨(holdAt s i.val).gen, none⟩ h.serial (heldOf s h.serial - h.grant) ∧
      (h.places = 0 → noRecord s t ∧ t.tp = s.tp) ∧
      (h.places ≠ 0 → (∀ y ∈ s.ps.queue, grantedIn h.tag y = false) → noRecord s t ∧ t.tp = { s.tp with
        notices := s.tp.notices ++ [n], taken := s.tp.taken - 1, events := s.tp.events ||| 0x01 }) ∧
      (h.places ≠ 0 → s.ps.queue = q ++ x :: q' → (∀ y ∈ q, grantedIn h.tag y = false) → grantedIn h.tag x = true →
        t.tp = s.tp ∧ t.ps = { s.ps with
          queue := q ++ { x with deps := x.deps ++ [.placed n 0] } :: q', waiting := t.ps.waiting }) ∧
      t = { s with tp := t.tp, ctu := { s.ctu with holds := t.ctu.holds, held := t.ctu.held }, ps := t.ps } := by
  have he : exec (.holdExpiry i) s = if h.places = 0 then .next (settleWaiting (freeEntry i.val h s))
      else .next (settleWaiting (secondNotice h n 0 (freeEntry i.val h s))) := by
    show execHoldExpiry i s = _
    simp only [execHoldExpiry, hl, h0, ho, and_self, if_true, hn]
  by_cases hp : h.places = 0
  · rw [if_pos hp] at he
    exact ⟨_, he, oneHold_of_free i.val h hr hr' rfl rfl, fun _ => ⟨rfl, rfl⟩, fun hc => absurd hp hc,
      fun hc => absurd hp hc, rfl⟩
  · rw [if_neg hp] at he
    have hf := secondNotice_frame h n 0 (freeEntry i.val h s)
    refine ⟨_, he, oneHold_of_free i.val h hr hr' ?_ ?_, fun hc => absurd hc hp, fun _ hno => ?_,
      fun _ hq h1 h2 => ?_, ?_⟩
    · rw [hf]; rfl
    · rw [hf]; rfl
    · rw [secondNotice_entered (s := freeEntry i.val h s) n 0 hno]
      exact ⟨rfl, rfl⟩
    · rw [secondNotice_attached (s := freeEntry i.val h s) n 0 hq h1 h2]
      exact ⟨rfl, rfl⟩
    · rw [hf]
      rfl

/-! ### Slots (R69, R75 to R80) -/

section Slots
variable {s : State} {n : Fin 32} {sl : Slot}

/-- With the slot written without a pending step, nothing is made. -/
theorem trySlot_tagInquiry (hp : sl.pending = none) (h : 1 ≤ txFree s .c2) :
    trySlot n.val (tagInquiry n.val sl s) = settleWaiting (enqueue .c2 (cardHome sl.card)
      (.inquire sl.tag sl.card sl.check (some sl.tag))
      (putSlot n.val { sl with state := .checking, reply := some s.tp.config.window, stalls := 0 } s)) := by
  rw [tagInquiry, if_pos h]
  refine trySlot_of_none ?_
  show ((Table.find (Table.put s.su.slots n.val _) n.val).bind fun x => x.pending) = none
  rw [Table.find_put_self]
  exact hp

theorem replyWindow_taken (hs : slotAt s n.val = some sl) (hr : sl.reply = some 0) (hp : sl.pending = none)
    (hj : isJoined s = true) :
    nextSatisfies (exec (.replyWindowExpiry n) s) fun t =>
      (sl.state = .asking → sl.kind = .redeem → sl.offline = false →
        ended s t n.val sl (plainNotice sl.tag sl.card .noAnswer)) ∧
      (sl.state = .asking → sl.kind = .redeem → sl.offline = true → offlineOutcome s t s.lc n.val sl) ∧
      (sl.state = .asking → sl.kind = .inquire → ended s t n.val sl (plainNotice sl.tag sl.card .noAnswer)) ∧
      ((sl.state = .asking ∧ sl.kind = .ret) ∨ sl.state = .checking ∨
          (sl.state = .asking ∧ sl.kind = .load ∧ txFree s .c2 = 0) →
        ended s t n.val sl { plainNotice sl.tag sl.card .inDoubt with amountA := sl.amount }) ∧
      (sl.state = .asking → sl.kind = .load → 1 ≤ txFree s .c2 →
        oneSlot s t n.val (some { sl with state := .checking, reply := some s.tp.config.window, stalls := 0 }) ∧
        noRecord s t ∧ t = { s with ps := t.ps, su := { s.su with slots := t.su.slots }, lc := { s.lc with
          tx2 := { s.lc.tx2 with frames := s.lc.tx2.frames ++
            [⟨cardHome sl.card, .inquire sl.tag sl.card sl.check (some sl.tag), 0, 0⟩] } } }) ∧
      (sl.state = .claiming → entryOutcome s t s.lc n.val sl .deferRetry
        ⟨.claimRetry, .none, sl.card, sl.check, sl.amount, sl.tag, sl.hold.map (·.1), liveDay s, false, 0⟩) := by
  have he : exec (.replyWindowExpiry n) s = .next (settleWaiting (trySlot n.val (noAnswer n.val sl s))) := by
    show execReplyWindowExpiry n s = _
    simp only [execReplyWindowExpiry, hs, hr, hj, and_self, if_true]
  refine ⟨_, he, fun h1 h2 h3 => ?_, fun h1 h2 h3 => ?_, fun h1 h2 => ?_, ?_, fun h1 h2 h3 => ?_, fun h1 => ?_⟩
  · simp only [noAnswer, h1, h2, redeemUnanswered, h3, Bool.false_eq_true, if_false]
    exact ended_of_trySlot ..
  · simp only [noAnswer, h1, h2, redeemUnanswered, h3, if_true]
    exact offline_of_waitStep s s.lc n.val sl
  · simp only [noAnswer, h1, h2]
    exact ended_of_trySlot ..
  · rintro (⟨h1, h2⟩ | h1 | ⟨h1, h2, h3⟩)
    · simp only [noAnswer, h1, h2]
      exact ended_of_trySlot ..
    · simp only [noAnswer, h1]
      exact ended_of_trySlot ..
    · simp only [noAnswer, h1, h2, tagInquiry, h3]
      exact ended_of_trySlot ..
  · simp only [noAnswer, h1, h2, trySlot_tagInquiry hp h3]
    exact ⟨oneSlot_of_put rfl, rfl, rfl⟩
  · simp only [noAnswer, h1]
    exact entry_of_waitStep s s.lc n.val sl .deferRetry _ (.inr ⟨rfl, rfl⟩)

theorem slotHoldExpiry_taken {id : HoldId} {grant : Nat} (hs : slotAt s n.val = some sl) (hst : sl.state = .held)
    (hh : sl.hold = some (id, grant)) (ht : sl.holdTimer = some 0) (hj : isJoined s = true) :
    nextSatisfies (exec (.slotHoldExpiry n) s) fun t =>
      oneSlot s t n.val (some (notifying sl)) ∧ noRecord s t ∧ t = { s with
        ps := t.ps
        su := { s.su with slots := t.su.slots, due := s.su.due ++
          [⟨{ plainNotice sl.tag sl.card .expired with amountA := grant }, some n.val, true⟩] }
        lc := { s.lc with tx2 := { s.lc.tx2 with frames := s.lc.tx2.frames ++
          (if 1 ≤ txFree s .c2 then [⟨cardHome sl.card, .drop sl.tag id, 0, 0⟩] else []) } } } := by
  have he : exec (.slotHoldExpiry n) s = .next (settleWaiting (releaseHeld n.val sl .expired s)) := by
    show execSlotHoldExpiry n s = _
    simp only [execSlotHoldExpiry, hs, hst, ht, hj, and_self, if_true]
  rw [releaseHeld, sendDrop_eq hh, hh] at he
  exact ⟨_, he, oneSlot_of_put rfl, rfl, rfl⟩

end Slots

/-! ### Deferred Queue and Tally Unit (R91, R94, R144, R148) -/

theorem dqWindow_taken {s : State} {e : DeferredEntry} (hs : sentEntry s = some e) (hr : s.dq.reply = some 0)
    (hp : s.dq.pending = none) (hj : isJoined s = true) (hb : Table.rises s.dq.backoff = true) :
    nextSatisfies (exec .dqWindowExpiry s) fun t =>
      oneBackoff s t (cardHome e.card) ⟨min ((backoffOf s (cardHome e.card)).level + 1) 4,
        some (5000 * 2 ^ (backoffOf s (cardHome e.card)).level)⟩ ∧
      dqOutcome s t s.lc .backToWaiting { s.dq.area with entries := s.dq.area.entries.map fun x =>
        if x.sent then { x with sent := false, attempts := min (x.attempts + 1) 255 } else x } (s, []) [] := by
  have he : exec .dqWindowExpiry s = .next (settleWaiting (dqDecide .backToWaiting
      (putBackoff (cardHome e.card) (failedWindow (backoffOf s (cardHome e.card))) s))) := by
    show execDqWindowExpiry s = _
    simp only [execDqWindowExpiry, hs, hr, hp, hj, and_self, if_true]
  exact ⟨_, he, dqDecide_putBackoff s e s.lc _ _ .backToWaiting hb hs⟩

/-- The sending begins with every member peer (R144). -/
theorem startSending_eq (s : State) : startSending s = { s with tu := { s.tu with
    sendList := memberPeers s
    tally := if memberPeers s = [] then some (s.tp.config.tally * 1000) else none } } := by
  simp only [startSending, List.isEmpty_iff, tallyTime]

/-- Settles O58: the tick, then each timer at 0. -/
theorem timerExpiries : Obligations.TimerExpiries := by
  intro s
  refine ⟨clock_of_lt, fun t h ht => ?_, fun i h n q q' x hl h0 ho hr hr' hn => holdExpiry_taken q q' x hl h0 ho hr hr' hn,
    fun n sl => replyWindow_taken, fun n sl id grant => slotHoldExpiry_taken, fun e => dqWindow_taken,
    fun home h0 ho hb => ?_, fun hs h0 hj => ?_, fun hs h0 hj => ?_⟩
  · rw [clock_of_le h] at ht
    subst ht
    exact ⟨rfl, holdAt_tick _, slotAt_tick _, backoffOf_tick _, rfl⟩
  · have he : exec (.backoffExpiry home) s =
        .next (settleWaiting (putBackoff home { backoffOf s home with time := none } s)) := if_pos ⟨h0, ho⟩
    exact ⟨_, he, oneBackoff_of_set hb rfl, rfl, rfl⟩
  · have he : exec .quietTimerExpiry s =
        .next (settleWaiting (startSending { s with tu := { s.tu with state := .tallying, quiet := none } })) :=
      if_pos ⟨hs, h0, hj⟩
    rw [startSending_eq] at he
    exact ⟨_, he, rfl, rfl⟩
  · have he : exec .tallyTimerExpiry s = .next (settleWaiting (beginComputation { s with tu := { s.tu with tally := none } })) :=
      if_pos ⟨hs, h0, hj⟩
    exact ⟨_, he, rfl, rfl⟩

end Sys2Proof.Machine

/-! ## The Posting Store's events (R62, R85, R103, R125 to R130, R155) -/
namespace Sys2Proof.Machine
open Safety

/-! ### The updates of a durable record (R123, R128) -/

section Applied
variable {α : Type} [DecidableEq α]

theorem Table.get_set (d : α) {t : Table α} (k : Nat) (v : α) (h : Table.rises t = true) (j : Nat) :
    Table.get d (Table.set d t k v) j = if j = k then v else Table.get d t j := by
  split_ifs with hj
  · rw [hj, Table.get_set_self d t k v h]
  · exact Table.get_set_of_ne d t k j v h hj

omit [DecidableEq α] in
theorem Table.find_put (t : Table α) (k : Nat) (v : α) (j : Nat) :
    Table.find (Table.put t k v) j = if j = k then some v else Table.find t j := by
  split_ifs with hj
  · rw [hj, Table.find_put_self]
  · exact Table.find_put_of_ne t k j v hj

end Applied

/-! ### Release at durability (R127) -/

/-- No release reads or writes the Posting Store. -/
theorem release_putPs (d : Dependent) (s : State) (p : Ps) :
    release d { s with ps := p } = { release d s with ps := p } := by
  cases d with
  | answer dst b => rfl
  | placed n asked =>
    simp only [release, releasePlaced]
    split_ifs
    · simp only [enteredHold]
      have hl : localHold (enterPlaced n { s with ps := p }) n.tag = localHold (enterPlaced n s) n.tag := rfl
      rw [hl]
      cases localHold (enterPlaced n s) n.tag <;> rfl
    · rfl
  | slotFrame slot tag dst b =>
    simp only [release, releaseSlotFrame]
    have hs : slotAt { s with ps := p } slot = slotAt s slot := rfl
    rw [hs]
    cases slotAt s slot with
    | none => rfl
    | some sl => simp only; split_ifs <;> rfl
  | slotNotice slot n => rfl
  | dqFrame dst b =>
    simp only [release, releaseDqFrame]
    have hs : sentEntry { s with ps := p } = sentEntry s := rfl
    rw [hs]
    split_ifs <;> rfl
  | loss n => rfl
  | configured clamped => rfl
  | opened day settle => cases settle <;> rfl
  | tally dst b => rfl
  | payoutMade day =>
    simp only [release, releasePayout]
    split_ifs <;> rfl

theorem releaseAll_putPs (ds : List Dependent) (s : State) (p : Ps) :
    releaseAll ds { s with ps := p } = { releaseAll ds s with ps := p } := by
  induction ds generalizing s with
  | nil => rfl
  | cons d ds ih =>
    rw [releaseAll, List.foldl_cons, release_putPs]
    exact ih (release d s)

/-- A release leaves the command in hand, or ends it with its response. -/
theorem release_hand (d : Dependent) (s : State) : (release d s).tp.hand = s.tp.hand ∨ (release d s).tp.hand = none := by
  cases d with
  | answer dst b => exact .inl rfl
  | placed n asked =>
    refine .inl ?_
    simp only [release, releasePlaced, enteredHold]
    split_ifs
    · cases localHold (enterPlaced n s) n.tag <;> rfl
    · rfl
  | slotFrame slot tag dst b =>
    refine .inl ?_
    simp only [release, releaseSlotFrame]
    cases slotAt s slot with
    | none => rfl
    | some sl => simp only; split_ifs <;> rfl
  | slotNotice slot n => exact .inl rfl
  | dqFrame dst b =>
    refine .inl ?_
    simp only [release, releaseDqFrame]
    split_ifs <;> rfl
  | loss n => exact .inl rfl
  | configured clamped => exact .inr rfl
  | opened day settle => cases settle with
    | true => exact .inr rfl
    | false => exact .inl rfl
  | tally dst b => exact .inl rfl
  | payoutMade day =>
    refine .inl ?_
    simp only [release, releasePayout]
    split_ifs <;> rfl

theorem releaseAll_hand (ds : List Dependent) (s : State) :
    (releaseAll ds s).tp.hand = s.tp.hand ∨ (releaseAll ds s).tp.hand = none := by
  induction ds generalizing s with
  | nil => exact .inl rfl
  | cons d ds ih =>
    rcases ih (release d s) with h | h
    · exact (release_hand d s).imp h.trans h.trans
    · exact .inr h

/-- With no CONFIGURE in hand none is made. -/
theorem tryConfigure_of_not {s : State} (h : ∀ c m j, s.tp.hand ≠ some (.configure c m j)) : tryConfigure s = s := by
  unfold tryConfigure
  split
  next c m j hc => exact absurd hc (h c m j)
  next => rfl

theorem writeCompletion_taken {s : State} {r : PostingRecord} {rest : List PostingRecord} (hr : isRunning s = true)
    (h0 : s.tp.startup = .none) (hq : s.ps.queue = r :: rest) (hh : ∀ c m j, s.tp.hand ≠ some (.configure c m j)) :
    nextSatisfies (exec .writeCompletion s) fun t =>
      t.ps = ⟨{ r.updates.foldl applyUpdate s.ps.store with torn := false }, rest, if rest = [] then 0 else 40, t.ps.waiting⟩ ∧
      t = { r.deps.foldl (fun u d => release d u) s with ps := t.ps } := by
  have hne : s.tp.startup ≠ .finishing := by rw [h0]; decide
  have he : exec .writeCompletion s = .next (tryConfigure (settleWaiting (releaseAll r.deps (commitHead r rest s)))) := by
    show execWriteCompletion s = _
    simp only [execWriteCompletion, hq, if_pos hr, if_neg hne]
  have hps : releaseAll r.deps (commitHead r rest s) = { releaseAll r.deps s with ps := (commitHead r rest s).ps } :=
    releaseAll_putPs r.deps s _
  rw [tryConfigure_of_not ?_, hps] at he
  · refine ⟨_, he, ?_, rfl⟩
    cases rest <;> rfl
  · intro c m j hc
    rcases releaseAll_hand r.deps (commitHead r rest s) with h | h
    · exact hh c m j (h.symm.trans hc)
    · exact Option.some_ne_none _ (hc.symm.trans h)

/-- What entering GRANTED does to its hold: one place is left to it. -/
theorem releasePlaced_frame (n : Notice) (s : State) : releasePlaced n s = { s with
    ctu := { s.ctu with holds := (releasePlaced n s).ctu.holds }, tp := { s.tp with
      notices := s.tp.notices ++ [n], taken := s.tp.taken - 1, events := s.tp.events ||| 0x01 } } := by
  simp only [releasePlaced, enteredHold]
  split_ifs
  · cases localHold (enterPlaced n s) n.tag <;> rfl
  · rfl

theorem releasePlaced_other {n : Notice} {s : State} (h : n.outcome ≠ .granted ∨ localHold s n.tag = none) :
    releasePlaced n s = enterPlaced n s := by
  unfold releasePlaced
  split_ifs with ho
  · have hl : localHold (enterPlaced n s) n.tag = none := h.resolve_left (fun hc => hc ho)
    simp only [enteredHold, hl]
  · rfl

theorem releasePlaced_granted {n : Notice} {s : State} {i : Nat} {h : LiveHold} (ho : n.outcome = .granted)
    (hl : localHold s n.tag = some (i, h)) :
    releasePlaced n s = putHold i ⟨(holdAt s i).gen, some { h with places := 1 }⟩ (enterPlaced n s) := by
  have hl' : localHold (enterPlaced n s) n.tag = some (i, h) := hl
  simp only [releasePlaced, ho, if_true, enteredHold, hl']
  rfl

theorem holdAt_putHold {s : State} (i : Nat) (e : HoldEntry) (h : Table.rises s.ctu.holds = true) (j : Nat) :
    holdAt (putHold i e s) j = if j = i then e else holdAt s j := Table.get_set _ i e h j

theorem releaseSlotFrame_frame (k : Nat) (tag : Tag) (dst : Station) (b : Body) (s : State) :
    releaseSlotFrame k tag dst b s = { s with
      su := { s.su with slots := (releaseSlotFrame k tag dst b s).su.slots }, lc := { s.lc with
        tx2 := ⟨s.lc.tx2.frames ++ [⟨dst, b, 0, 0⟩], s.lc.tx2.reserved - 1⟩ } } := by
  simp only [releaseSlotFrame]
  cases slotAt s k with
  | none => rfl
  | some sl => simp only; split_ifs <;> rfl

theorem releaseSlotFrame_asking {k : Nat} {tag : Tag} {s : State} {sl : Slot} (dst : Station) (b : Body)
    (hs : slotAt s k = some sl) (h : sl.tag = tag ∧ sl.state = .asking ∧ sl.pending = none) :
    oneSlot s (releaseSlotFrame k tag dst b s) k (some { sl with reply := some s.tp.config.window, stalls := 0 }) := by
  simp only [releaseSlotFrame, hs, if_pos h]
  exact ⟨Table.find_put_self _ _ _, fun m hm => Table.find_put_of_ne _ _ _ _ hm⟩

theorem releaseSlotFrame_other {k : Nat} {tag : Tag} {s : State} (dst : Station) (b : Body)
    (h : ∀ sl, slotAt s k = some sl → ¬ (sl.tag = tag ∧ sl.state = .asking ∧ sl.pending = none)) :
    (releaseSlotFrame k tag dst b s).su = s.su := by
  simp only [releaseSlotFrame]
  cases hs : slotAt s k with
  | none => rfl
  | some sl => simp only [if_neg (h sl hs)]; rfl

theorem releaseDqFrame_frame (dst : Station) (b : Body) (s : State) : releaseDqFrame dst b s = { s with
    dq := (releaseDqFrame dst b s).dq
    lc := { s.lc with tx3 := ⟨s.lc.tx3.frames ++ [⟨dst, b, 0, 0⟩], s.lc.tx3.reserved - 1⟩ } } := by
  simp only [releaseDqFrame]
  split_ifs <;> rfl

theorem releaseDqFrame_sent {dst : Station} {b : Body} {s : State} {e : DeferredEntry} (h : sentEntry s = some e) :
    (releaseDqFrame dst b s).dq = if cardHome e.card = dst ∧ entryBody e = b ∧ s.dq.pending = none then
      { s.dq with reply := some s.tp.config.window, stalls := 0 } else s.dq := by
  have hc : ((sentEntry s).any (fun e => cardHome e.card == dst && entryBody e == b) && s.dq.pending.isNone) =
      decide (cardHome e.card = dst ∧ entryBody e = b ∧ s.dq.pending = none) := by
    rw [h, Bool.eq_iff_iff]
    simp [and_assoc]
  simp only [releaseDqFrame, hc, decide_eq_true_eq]
  split_ifs <;> rfl

theorem releaseDqFrame_of_none {dst : Station} {b : Body} {s : State} (h : sentEntry s = none) :
    (releaseDqFrame dst b s).dq = s.dq := by
  simp only [releaseDqFrame, h]
  rfl

theorem releasePayout_eq (day : Day) (s : State) : releasePayout day s = { s with
    tp := { s.tp with events := s.tp.events ||| 0x02 }
    tu := if s.tu.state = .computing ∧ s.tu.computing = none ∧ s.tu.round.day = some day then
      { s.tu with state := .settled } else s.tu } := by
  simp only [releasePayout]
  split_ifs <;> rfl

theorem releaseOpened_eq (day : Day) (settle : Bool) (s : State) : releaseOpened day settle s = { s with
    tp := if settle then { s.tp with
        busy := false, hand := none
        response := { s.tp.response with result := .accepted, reason := .none, tag := 0, data := [] } }
      else s.tp
    tu := { s.tu with heldOpen := s.tu.heldOpen.map fun h => if h.day = day then { h with ready := true } else h } } := by
  cases settle <;> rfl

end Sys2Proof.Machine

/-! ## The store fault (R62, R85, R103, R129, R130, R155) -/
namespace Sys2Proof.Machine
open Safety

/-! ### The notices that enter at the fault -/

/-- NOTICE, set by the entry of notices (R180). -/
def noticed (ns : List Notice) : BitVec 8 := if ns = [] then 0 else eventBit .notice

@[simp] theorem noticed_nil : noticed [] = 0 := rfl

theorem noticed_append (ms ns : List Notice) : noticed (ms ++ ns) = noticed ms ||| noticed ns := by
  cases ms <;> cases ns <;> simp [noticed]

/-- These notices have entered and this many taken places have been given up (R178). -/
def enteredAll (ns : List Notice) (places : Nat) (s : State) : State :=
  { s with tp := { s.tp with
      notices := s.tp.notices ++ ns, taken := s.tp.taken - places, events := s.tp.events ||| noticed ns } }

theorem enteredAll_nil (s : State) : enteredAll [] 0 s = s := by
  simp [enteredAll]

theorem enteredAll_enteredAll (ms ns : List Notice) (j k : Nat) (s : State) :
    enteredAll ns k (enteredAll ms j s) = enteredAll (ms ++ ns) (j + k) s := by
  simp [enteredAll, noticed_append, BitVec.or_assoc, Nat.sub_sub]

/-! ### The dependents of the discarded records (R62, R103, R130) -/

/-- The answer a discarded dependent leaves (R62). -/
def degradedAnswer : Dependent → Option TxFrame
  | .answer dst b => some ⟨dst, degraded b, 0, 0⟩
  | _ => none

/-- The FAULT notice a discarded dependent leaves in its taken place (R62). -/
def placedFault (s : State) : Dependent → Option Notice
  | .placed n asked => if grantedOfLive s n then none else some (faultNotice n.tag n.card asked)
  | _ => none

/-- The FAULT notice a discarded LOSS leaves (R103). -/
def lossFault : Dependent → Option DueNotice
  | .loss n => some ⟨faultNotice n.tag n.card n.amountA, none, false⟩
  | _ => none

/-- The answers, the notices in taken places and the waiting notices that discarded dependents leave. -/
def discarded (answers : List TxFrame) (faults : List Notice) (losses : List DueNotice) (s : State) : State :=
  enteredAll faults faults.length { s with
    su := { s.su with due := s.su.due ++ losses }
    lc := { s.lc with tx0 := ⟨s.lc.tx0.frames ++ answers, s.lc.tx0.reserved - answers.length⟩ } }

theorem discarded_nil (s : State) : discarded [] [] [] s = s := by
  simp [discarded, enteredAll_nil]

theorem discarded_discarded (as bs : List TxFrame) (ms ns : List Notice) (ks ls : List DueNotice) (s : State) :
    discarded bs ns ls (discarded as ms ks s) = discarded (as ++ bs) (ms ++ ns) (ks ++ ls) s := by
  simp [discarded, enteredAll, noticed_append, BitVec.or_assoc, Nat.sub_sub]

theorem faultDependent_eq (d : Dependent) (s : State) : faultDependent s d =
    discarded (degradedAnswer d).toList (placedFault s d).toList (lossFault d).toList s := by
  cases d with
  | answer dst b =>
    simp [faultDependent, degradedAnswer, placedFault, lossFault, discarded, enteredAll_nil, enterReserved, enqueue, unreserve]
  | placed n asked =>
    simp only [faultDependent, placedFault, degradedAnswer, lossFault]
    split_ifs
    · exact (discarded_nil s).symm
    · simp [discarded, enteredAll, enterPlaced, noticed, enterNotice, freeTaken, setEvent]
  | loss n => simp [faultDependent, degradedAnswer, placedFault, lossFault, discarded, enteredAll_nil, fallDue]
  | slotFrame => exact (discarded_nil s).symm
  | slotNotice => exact (discarded_nil s).symm
  | dqFrame => exact (discarded_nil s).symm
  | configured => exact (discarded_nil s).symm
  | opened => exact (discarded_nil s).symm
  | tally => exact (discarded_nil s).symm
  | payoutMade => exact (discarded_nil s).symm

theorem toList_append_filterMap {α β : Type} (f : α → Option β) (a : α) (l : List α) :
    (f a).toList ++ l.filterMap f = (a :: l).filterMap f := by
  cases h : f a <;> simp [h]

theorem faultDependents_eq (ds : List Dependent) (s : State) : ds.foldl faultDependent s =
    discarded (ds.filterMap degradedAnswer) (ds.filterMap (placedFault s)) (ds.filterMap lossFault) s := by
  induction ds generalizing s with
  | nil => exact (discarded_nil s).symm
  | cons d ds ih =>
    have hp : placedFault (faultDependent s d) = placedFault s := by rw [faultDependent_eq]; rfl
    rw [List.foldl_cons, ih, hp, faultDependent_eq, discarded_discarded]
    simp only [toList_append_filterMap]

/-! ### The local holds (R62) -/

/-- The FAULT notice that ends a local hold (R62). -/
def holdFault (s : State) (e : Nat × LiveHold) : Notice := faultNotice e.2.tag (cardNumber s e.2.serial) e.2.grant

/-- These entries of the hold table become free (R42). -/
def freeEntries (hs : List (Nat × LiveHold)) (s : State) : State := hs.foldl (fun t e => freeEntry e.1 e.2 t) s

theorem freeEntries_enteredAll (hs : List (Nat × LiveHold)) (ns : List Notice) (k : Nat) (s : State) :
    freeEntries hs (enteredAll ns k s) = enteredAll ns k (freeEntries hs s) := by
  induction hs generalizing s with
  | nil => rfl
  | cons e hs ih => exact ih (freeEntry e.1 e.2 s)

theorem freeEntries_frame (hs : List (Nat × LiveHold)) (s : State) : freeEntries hs s =
    { s with ctu := { s.ctu with holds := (freeEntries hs s).ctu.holds, held := (freeEntries hs s).ctu.held } } := by
  induction hs generalizing s with
  | nil => rfl
  | cons e hs ih => exact ih (freeEntry e.1 e.2 s)

/-- What the freed entries leave in the Card Table Unit depends on that unit alone. -/
theorem freeEntries_ctu (hs : List (Nat × LiveHold)) {s t : State} (h : s.ctu = t.ctu) :
    (freeEntries hs s).ctu = (freeEntries hs t).ctu := by
  induction hs generalizing s t with
  | nil => exact h
  | cons e hs ih =>
    have hc : (freeEntry e.1 e.2 s).ctu = (freeEntry e.1 e.2 t).ctu := by simp [h, holdAt, heldOf]
    exact ih hc

theorem faultHold_eq {s : State} {e : Nat × LiveHold} (h : e.2.places ≠ 0) :
    faultHold s e = enteredAll [holdFault s e] e.2.places (freeEntry e.1 e.2 s) := by
  have hp : s.tp.taken - e.2.places = s.tp.taken - 1 - (e.2.places - 1) := by omega
  rw [faultHold, if_neg h]
  simp only [enteredAll, freeEntry_tp, hp]
  rfl

/-- The local holds ended, one after the other: their entries are free, their notices enter, their places are given up. -/
theorem faultHolds_eq {hs : List (Nat × LiveHold)} (s : State) (h : ∀ e ∈ hs, e.2.places ≠ 0) :
    hs.foldl faultHold s = enteredAll (hs.map (holdFault s)) (hs.map fun e => e.2.places).sum (freeEntries hs s) := by
  induction hs generalizing s with
  | nil => exact (enteredAll_nil s).symm
  | cons e hs ih =>
    obtain ⟨he, hs'⟩ := List.forall_mem_cons.1 h
    have hn : holdFault (enteredAll [holdFault s e] e.2.places (freeEntry e.1 e.2 s)) = holdFault s := rfl
    rw [List.foldl_cons, ih _ hs', faultHold_eq he, hn, freeEntries_enteredAll, enteredAll_enteredAll]
    rfl

theorem rises_freeEntries (hs : List (Nat × LiveHold)) {s : State} (h : Table.rises s.ctu.holds = true) :
    Table.rises (freeEntries hs s).ctu.holds = true := by
  induction hs generalizing s with
  | nil => exact h
  | cons e hs ih => exact ih (s := freeEntry e.1 e.2 s) (Table.rises_set _ _ _ h)

theorem holdAt_freeEntry {s : State} (i : Nat) (h : LiveHold) (hr : Table.rises s.ctu.holds = true) (j : Nat) :
    holdAt (freeEntry i h s) j = if j = i then ⟨(holdAt s i).gen, none⟩ else holdAt s j := Table.get_set _ i _ hr j

theorem heldOf_freeEntry {s : State} (i : Nat) (h : LiveHold) (hr : Table.rises s.ctu.held = true) (k : Nat) :
    heldOf (freeEntry i h s) k = if k = h.serial then heldOf s h.serial - h.grant else heldOf s k :=
  Table.get_set _ h.serial _ hr k

theorem holdAt_freeEntries (hs : List (Nat × LiveHold)) {s : State} (h : Table.rises s.ctu.holds = true) (i : Nat) :
    holdAt (freeEntries hs s) i =
      if (hs.any fun e => e.1 == i) = true then ⟨(holdAt s i).gen, none⟩ else holdAt s i := by
  induction hs generalizing s with
  | nil => rfl
  | cons e hs ih =>
    have hr : Table.rises (freeEntry e.1 e.2 s).ctu.holds = true := Table.rises_set _ _ _ h
    rw [freeEntries, List.foldl_cons, ← freeEntries, ih hr, holdAt_freeEntry e.1 e.2 h i, List.any_cons]
    by_cases hi : i = e.1
    · simp [hi]
    · have hb : (e.1 == i) = false := beq_false_of_ne (Ne.symm hi)
      rw [if_neg hi, hb, Bool.false_or]

theorem heldOf_freeEntries (hs : List (Nat × LiveHold)) {s : State} (h : Table.rises s.ctu.held = true) (k : Nat) :
    heldOf (freeEntries hs s) k =
      heldOf s k - ((hs.filter fun e => e.2.serial == k).map fun e => e.2.grant).sum := by
  induction hs generalizing s with
  | nil => rfl
  | cons e hs ih =>
    have hr : Table.rises (freeEntry e.1 e.2 s).ctu.held = true := Table.rises_set _ _ _ h
    rw [freeEntries, List.foldl_cons, ← freeEntries, ih hr, heldOf_freeEntry e.1 e.2 h k]
    by_cases hk : k = e.2.serial
    · simp [hk, Nat.sub_sub]
    · simp [hk, Ne.symm hk]

/-! ### The waiting notices (R85, R178) -/

/-- Whether one of these notices ends the slot of this number (R84). -/
def endsSlot (ds : List DueNotice) (n : Nat) : Bool := ds.any fun d => d.terminal && d.slot == some n

theorem Table.drop_eq_filter {α : Type} {n : Nat} (t : Table α) (k : Nat) (h : Table.risesFrom n t = true) :
    Table.drop t k = t.filter fun e => !(k == e.1) := by
  induction t generalizing n with
  | nil => rfl
  | cons e t ih =>
    obtain ⟨i, v⟩ := e
    simp only [Table.risesFrom, Bool.and_eq_true] at h
    have hge : k ≤ i → t.filter (fun e => !(k == e.1)) = t := fun hk => List.filter_eq_self.2 fun x hx => by
      have := (Table.nodup_of_risesFrom h.2).2 x hx
      simp only [Bool.not_eq_true', beq_eq_false_iff_ne]
      omega
    simp only [Table.drop, List.filter_cons, ih h.2]
    split_ifs with h1 h2 h3 h4 h5
    · simp [h1] at h2
    · exact (hge (Nat.le_of_eq h1.symm)).symm
    · rw [hge (Nat.le_of_lt h3)]
    · simp at h4; omega
    · rfl
    · simp at h5; omega

theorem Table.find_filter {α : Type} {n : Nat} (p : Nat → Bool) (t : Table α) (k : Nat) (h : Table.risesFrom n t = true) :
    Table.find (t.filter fun e => p e.1) k = if p k then Table.find t k else none := by
  induction t generalizing n with
  | nil => simp
  | cons e t ih =>
    obtain ⟨i, v⟩ := e
    simp only [Table.risesFrom, Bool.and_eq_true] at h
    have hlt : k ≤ i → Table.find t k = none := fun hk => Table.find_of_lt h.2 (by omega)
    rw [List.filter_cons, Table.find_cons]
    cases hp : p i with
    | true =>
      rw [if_pos rfl, Table.find_cons, ih h.2]
      split_ifs with h1 h2 h3 h4 h5
      all_goals simp_all
    | false =>
      simp only [Bool.false_eq_true, if_false]
      rw [ih h.2]
      split_ifs with h1 h2 h3
      · simp_all
      · exact hlt (Nat.le_of_lt h3)
      · rfl
      · rfl

/-- The oldest waiting notice enters and, a terminal one, frees its slot (R84, R178). -/
theorem enterDue_entered {s : State} {d : DueNotice} {ds : List DueNotice} (h : Table.rises s.su.slots = true)
    (hd : s.su.due = d :: ds) : enterDue d s = enteredAll [d.notice] 0 { s with su := { s.su with
      slots := s.su.slots.filter fun e => !endsSlot [d] e.1, due := ds } } := by
  have hs : (enterDue d s).su.slots = s.su.slots.filter fun e => !endsSlot [d] e.1 := by
    by_cases ht : d.terminal = true
    · cases hk : d.slot with
      | none => rw [enterDue_slots_other d s (.inl hk)]; simp [endsSlot, hk]
      | some k => rw [enterDue_slots_terminal d s k hk ht, Table.drop_eq_filter _ k h]; simp [endsSlot, hk, ht]
    · rw [enterDue_slots_other d s (.inr (Bool.eq_false_iff.2 ht))]
      simp [endsSlot, ht]
  rw [enterDue_eq, hs, hd]
  rfl

/-- The oldest notices enter the free places; the terminal ones free their slots (R84, R178). -/
theorem enterDues_eq (k : Nat) {s : State} (h : Table.rises s.su.slots = true) :
    enterDues k s = enteredAll ((s.su.due.take k).map (·.notice)) 0 { s with su := { s.su with
      slots := s.su.slots.filter fun e => !endsSlot (s.su.due.take k) e.1, due := s.su.due.drop k } } := by
  induction k generalizing s with
  | zero => simp [enterDues, endsSlot, enteredAll_nil]
  | succ k ih =>
    cases hd : s.su.due with
    | nil =>
      have hf : s.su.slots.filter (fun e => !endsSlot [] e.1) = s.su.slots := List.filter_eq_self.2 fun _ _ => rfl
      rw [enterDues_of_nil _ s hd, List.take_nil, List.drop_nil, hf, List.map_nil, enteredAll_nil, ← hd]
    | cons d ds =>
      have he := enterDue_entered h hd
      have hr : Table.rises (enterDue d s).su.slots = true := by rw [he]; exact Table.rises_filter _ h
      have hc : ∀ e : Nat × Slot, (!endsSlot (ds.take k) e.1 && !endsSlot [d] e.1) = !endsSlot (d :: ds.take k) e.1 := by
        intro e
        simp [endsSlot, Bool.and_comm]
      simp only [enterDues, hd]
      rw [ih hr, he]
      simp [enteredAll, ← noticed_append, BitVec.or_assoc, hc]

/-! ### The slots (R85) -/

/-- The FAULT notice that ends a slot (R85). -/
def slotFault (x : Nat × Slot) : DueNotice :=
  ⟨{ plainNotice x.2.tag x.2.card .fault with amountA := x.2.amount }, some x.1, true⟩

/-- The slot numbers whose terminal notice is not due. -/
def unended (due : List DueNotice) (slots : Table Slot) : List (Nat × Slot) := slots.filter fun x => !endsSlot due x.1

/-- A slot has been ended by the store fault (R85). -/
def slotFaulted (x : Nat × Slot) (s : State) : State :=
  { s with su := { s.su with slots := Table.put s.su.slots x.1 (notifying x.2), due := s.su.due ++ [slotFault x] } }

theorem faultSlot_eq {s : State} {x : Nat × Slot} (h : slotAt s x.1 = some x.2) :
    faultSlot s x.1 = if endsSlot s.su.due x.1 then s else slotFaulted x s := by
  simp only [faultSlot, h]
  rfl

theorem slotAt_slotFaulted (x : Nat × Slot) (s : State) (n : Nat) :
    slotAt (slotFaulted x s) n = if n = x.1 then some (notifying x.2) else slotAt s n := Table.find_put _ _ _ _

theorem endsSlot_append (ds es : List DueNotice) (n : Nat) : endsSlot (ds ++ es) n = (endsSlot ds n || endsSlot es n) :=
  List.any_append

theorem endsSlot_slotFaulted {x : Nat × Slot} {n : Nat} (s : State) (h : n ≠ x.1) :
    endsSlot (slotFaulted x s).su.due n = endsSlot s.su.due n := by
  have hx : endsSlot [slotFault x] n = false := by simp [endsSlot, slotFault, Ne.symm h]
  rw [slotFaulted, endsSlot_append, hx, Bool.or_false]

/-- The slots of a list, ended one after the other: each whose terminal notice is not due gets its FAULT notice (R85). -/
theorem faultSlot_foldl (l : List (Nat × Slot)) {s : State} (hd : (l.map (·.1)).Nodup)
    (hl : ∀ x ∈ l, slotAt s x.1 = some x.2) :
    (l.map (·.1)).foldl faultSlot s = { s with su := { s.su with
      slots := ((l.map (·.1)).foldl faultSlot s).su.slots
      due := s.su.due ++ (unended s.su.due l).map slotFault } } ∧
    ∀ n, slotAt ((l.map (·.1)).foldl faultSlot s) n =
      if n ∈ l.map (·.1) ∧ endsSlot s.su.due n = false then (slotAt s n).map notifying else slotAt s n := by
  induction l generalizing s with
  | nil => exact ⟨by simp [unended], fun n => by simp⟩
  | cons x l ih =>
    obtain ⟨hx, hl'⟩ := List.forall_mem_cons.1 hl
    rw [List.map_cons, List.nodup_cons] at hd
    have hne : ∀ y ∈ l, y.1 ≠ x.1 := fun y hy h => hd.1 (h ▸ List.mem_map_of_mem hy)
    have hm : ∀ n, n ≠ x.1 → (n ∈ x.1 :: l.map (·.1) ↔ n ∈ l.map (·.1)) := fun n hn =>
      List.mem_cons.trans (or_iff_right hn)
    rw [List.map_cons, List.foldl_cons, faultSlot_eq hx]
    cases he : endsSlot s.su.due x.1 with
    | true =>
      have hu : unended s.su.due (x :: l) = unended s.su.due l := by simp [unended, he]
      obtain ⟨hs, hat⟩ := ih hd.2 hl'
      rw [if_pos rfl, hu]
      refine ⟨hs, fun n => (hat n).trans ?_⟩
      by_cases hn : n = x.1
      · simp [hn, he]
      · simp only [hm n hn]
    | false =>
      have hu : unended s.su.due (x :: l) = x :: unended (slotFaulted x s).su.due l := by
        rw [unended, List.filter_cons_of_pos (by simp [he])]
        exact congrArg (x :: ·) (List.filter_congr fun y hy => by rw [endsSlot_slotFaulted s (hne y hy)])
      obtain ⟨hs, hat⟩ := ih (s := slotFaulted x s) hd.2 fun y hy => by
        rw [slotAt_slotFaulted, if_neg (hne y hy), hl' y hy]
      rw [if_neg Bool.false_ne_true, hu]
      refine ⟨hs.trans (by simp [slotFaulted]), fun n => (hat n).trans ?_⟩
      rw [slotAt_slotFaulted]
      by_cases hn : n = x.1
      · simp [hn, hd.1, hx, he]
      · simp only [endsSlot_slotFaulted s hn, if_neg hn, hm n hn]

/-- The waiting notices at the fault, the GRANTED notices of slots dropped (R85). -/
def dueAtFault (s : State) : List DueNotice :=
  s.su.due.filter fun d : DueNotice => !(d.slot.isSome && decide (d.notice.outcome = .granted))

/-- The waiting notices that enter at the fault (R85, R178). -/
def enteringAtFault (s : State) : List DueNotice := (dueAtFault s).take (freePlaces s)

/-- The waiting notices that no place is free for at the fault (R85, R178). -/
def waitingAtFault (s : State) : List DueNotice := (dueAtFault s).drop (freePlaces s)

theorem endsSlot_dueAtFault (s : State) (n : Nat) :
    endsSlot (dueAtFault s) n = (endsSlot (enteringAtFault s) n || endsSlot (waitingAtFault s) n) := by
  rw [← endsSlot_append, enteringAtFault, waitingAtFault, List.take_append_drop]

/-- The waiting notices have entered the places that are free (R85, R178). -/
def dueEntered (s : State) : State :=
  enteredAll ((enteringAtFault s).map (·.notice)) 0 { s with su := { s.su with
    slots := unended (enteringAtFault s) s.su.slots, due := waitingAtFault s } }

theorem enterWaiting_dropGranted {s : State} (h : Table.rises s.su.slots = true) :
    enterWaiting (dropGranted s) = dueEntered s := enterDues_eq (freePlaces s) (s := dropGranted s) h

theorem slotAt_dueEntered {s : State} (h : Table.rises s.su.slots = true) (n : Nat) :
    slotAt (dueEntered s) n = if endsSlot (enteringAtFault s) n then none else slotAt s n := by
  have hf : slotAt (dueEntered s) n = if !endsSlot (enteringAtFault s) n then slotAt s n else none :=
    Table.find_filter (fun n => !endsSlot (enteringAtFault s) n) s.su.slots n h
  rw [hf]
  cases endsSlot (enteringAtFault s) n <;> rfl

/-- The slots still in use that get a FAULT notice are those none of whose waiting notices ends them (R85). -/
theorem unended_waiting (s : State) : unended (waitingAtFault s) (unended (enteringAtFault s) s.su.slots) =
    unended (dueAtFault s) s.su.slots := by
  simp only [unended, List.filter_filter, endsSlot_dueAtFault, Bool.not_or, Bool.and_comm]

/-- The Slot Unit at the store fault (R85). -/
theorem faultSlots_eq {s : State} (h : Table.rises s.su.slots = true) :
    faultSlots s = withdraw .c2 (enteredAll ((enteringAtFault s).map (·.notice)) 0 { s with su := { s.su with
      slots := (faultSlots s).su.slots
      due := waitingAtFault s ++ (unended (dueAtFault s) s.su.slots).map slotFault } }) ∧
    ∀ n, slotAt (faultSlots s) n = if endsSlot (enteringAtFault s) n then none
      else if endsSlot (waitingAtFault s) n then slotAt s n else (slotAt s n).map notifying := by
  have hr : Table.rises (dueEntered s).su.slots = true := Table.rises_filter _ h
  have hf : faultSlots s = withdraw .c2 (((dueEntered s).su.slots.map (·.1)).foldl faultSlot (dueEntered s)) := by
    rw [faultSlots, enterWaiting_dropGranted h]
  obtain ⟨hs, hat⟩ := faultSlot_foldl (dueEntered s).su.slots (s := dueEntered s) (Table.nodup_of_risesFrom hr).1
    fun x hx => Table.find_of_mem hr hx
  have hu : unended (dueEntered s).su.due (dueEntered s).su.slots = unended (dueAtFault s) s.su.slots := unended_waiting s
  rw [hu] at hs
  refine ⟨?_, fun n => ?_⟩
  · rw [hf]
    exact congrArg (withdraw .c2) hs
  · have hat' : slotAt (faultSlots s) n = slotAt (((dueEntered s).su.slots.map (·.1)).foldl faultSlot (dueEntered s)) n := by
      rw [hf]; rfl
    have hall : slotAt (faultSlots s) n = if endsSlot (waitingAtFault s) n = false
        then (slotAt (dueEntered s) n).map notifying else slotAt (dueEntered s) n := by
      rw [hat', hat]
      cases hn : slotAt (dueEntered s) n with
      | none => simp
      | some sl =>
        have hm : n ∈ (dueEntered s).su.slots.map (·.1) := (Table.find_isSome_iff hr).1 (by rw [← slotAt, hn]; rfl)
        simp only [hm, true_and]
        rfl
    rw [hall, slotAt_dueEntered h]
    cases endsSlot (enteringAtFault s) n <;> cases endsSlot (waitingAtFault s) n <;> rfl

theorem faultSlots_tp {s : State} (h : Table.rises s.su.slots = true) : (faultSlots s).tp = { s.tp with
    notices := s.tp.notices ++ (enteringAtFault s).map (·.notice)
    events := s.tp.events ||| noticed ((enteringAtFault s).map (·.notice)) } := by rw [(faultSlots_eq h).1]; rfl

theorem faultSlots_su {s : State} (h : Table.rises s.su.slots = true) : (faultSlots s).su = { s.su with
    slots := (faultSlots s).su.slots
    due := waitingAtFault s ++ (unended (dueAtFault s) s.su.slots).map slotFault } := congrArg State.su (faultSlots_eq h).1

theorem faultSlots_lc {s : State} (h : Table.rises s.su.slots = true) : (faultSlots s).lc = { s.lc with
    tx2 := ⟨if s.lc.sending = some .c2 then s.lc.tx2.frames.take 1 else [], 0⟩ } := by rw [(faultSlots_eq h).1]; rfl

theorem faultSlots_ctu {s : State} (h : Table.rises s.su.slots = true) : (faultSlots s).ctu = s.ctu := by
  rw [(faultSlots_eq h).1]; rfl

theorem faultSlots_dq {s : State} (h : Table.rises s.su.slots = true) : (faultSlots s).dq = s.dq := by
  rw [(faultSlots_eq h).1]; rfl

theorem faultSlots_ps {s : State} (h : Table.rises s.su.slots = true) : (faultSlots s).ps = s.ps := by
  rw [(faultSlots_eq h).1]; rfl

theorem faultSlots_tu {s : State} (h : Table.rises s.su.slots = true) : (faultSlots s).tu = s.tu := by
  rw [(faultSlots_eq h).1]; rfl

theorem faultSlots_choices {s : State} (h : Table.rises s.su.slots = true) : (faultSlots s).choices = s.choices := by
  rw [(faultSlots_eq h).1]; rfl

/-! ### The store fault as a whole (R129, R130) -/

section Fault
variable {s : State}

/-- The dependents of the records discarded at the fault. -/
def faultDeps (s : State) : List Dependent := s.ps.queue.flatMap (·.deps)

/-- The state at the fault after the discarded dependents and the local holds. -/
def holdsEnded (s : State) : State :=
  (localHolds ((faultDeps s).foldl faultDependent (tearWrite s))).foldl faultHold
    ((faultDeps s).foldl faultDependent (tearWrite s))

/-- The FAULT notices in taken places (R62). -/
def faultNotices (s : State) : List Notice :=
  (faultDeps s).filterMap (placedFault s) ++ (localHolds s).map (holdFault s)

/-- The places given up at the fault (R62). -/
def faultPlaces (s : State) : Nat :=
  ((faultDeps s).filterMap (placedFault s)).length + ((localHolds s).map fun e => e.2.places).sum

theorem faultPlaces_eq (s : State) : faultPlaces s =
    (faultNotices s).length - (localHolds s).length + ((localHolds s).map fun e => e.2.places).sum := by
  simp [faultPlaces, faultNotices]

theorem holdsEnded_eq (s : State) : holdsEnded s = enteredAll (faultNotices s) (faultPlaces s)
    (freeEntries (localHolds s) { tearWrite s with
      su := { s.su with due := s.su.due ++ (faultDeps s).filterMap lossFault }
      lc := { s.lc with tx0 := ⟨s.lc.tx0.frames ++ (faultDeps s).filterMap degradedAnswer,
        s.lc.tx0.reserved - ((faultDeps s).filterMap degradedAnswer).length⟩ } }) := by
  have hl : ∀ e ∈ localHolds s, e.2.places ≠ 0 := fun e he => by simpa using (List.mem_filter.1 he).2
  rw [holdsEnded, faultDependents_eq]
  refine (faultHolds_eq _ hl).trans ?_
  rw [discarded, freeEntries_enteredAll, enteredAll_enteredAll]
  rfl

/-- What the discarded dependents and the ended local holds change, the hold table and the held totals apart (R62, R103). -/
theorem holdsEnded_frame (s : State) : holdsEnded s = { s with
    tp := { s.tp with
      notices := s.tp.notices ++ faultNotices s, taken := s.tp.taken - faultPlaces s
      events := s.tp.events ||| noticed (faultNotices s) }
    ctu := { s.ctu with
      holds := (freeEntries (localHolds s) s).ctu.holds, held := (freeEntries (localHolds s) s).ctu.held }
    su := { s.su with due := s.su.due ++ (faultDeps s).filterMap lossFault }
    lc := { s.lc with tx0 := ⟨s.lc.tx0.frames ++ (faultDeps s).filterMap degradedAnswer,
      s.lc.tx0.reserved - ((faultDeps s).filterMap degradedAnswer).length⟩ }
    ps := ⟨{ s.ps.store with torn := true }, [], 0, []⟩ } := by
  rw [holdsEnded_eq, freeEntries_frame]
  have hc : (freeEntries (localHolds s) { tearWrite s with
      su := { s.su with due := s.su.due ++ (faultDeps s).filterMap lossFault }
      lc := { s.lc with tx0 := ⟨s.lc.tx0.frames ++ (faultDeps s).filterMap degradedAnswer,
        s.lc.tx0.reserved - ((faultDeps s).filterMap degradedAnswer).length⟩ } }).ctu =
      (freeEntries (localHolds s) s).ctu := freeEntries_ctu _ rfl
  rw [hc]
  rfl

theorem faultTp_rest (s : State) : faultTp s = { s with tp := (faultTp s).tp } := by
  simp only [faultTp]
  split <;> rfl

/-- The Deferred Queue's, the Tally Unit's and the Till Port's part of the store fault (R103, R129, R155). -/
def faultRest (s : State) : State := faultTp (faultTu (faultDq s))

theorem storeFaulted_eq (s : State) : storeFaulted s = faultRest (faultSlots (holdsEnded s)) := rfl

theorem faultRest_eq (s : State) : faultRest s = { s with
    tp := (faultRest s).tp
    dq := { s.dq with reply := none, pending := none }
    lc := { s.lc with
      tx1 := { s.lc.tx1 with reserved := 0 }
      tx3 := ⟨if s.lc.sending = some .c3 then s.lc.tx3.frames.take 1 else [], 0⟩ }
    tu := { s.tu with
      quiet := none, tally := none, opening := none, cutShort := false, heldOpen := none, sendList := [], inbound := []
      computing := none, result := none } } := faultTp_rest (faultTu (faultDq s))

theorem faultRest_ctu (s : State) : (faultRest s).ctu = s.ctu := by rw [faultRest_eq]
theorem faultRest_su (s : State) : (faultRest s).su = s.su := by rw [faultRest_eq]
theorem faultRest_ps (s : State) : (faultRest s).ps = s.ps := by rw [faultRest_eq]
theorem faultRest_choices (s : State) : (faultRest s).choices = s.choices := by rw [faultRest_eq]

theorem faultRest_dq (s : State) : (faultRest s).dq = { s.dq with reply := none, pending := none } := by
  rw [faultRest_eq]

theorem faultRest_lc (s : State) : (faultRest s).lc = { s.lc with
    tx1 := { s.lc.tx1 with reserved := 0 }
    tx3 := ⟨if s.lc.sending = some .c3 then s.lc.tx3.frames.take 1 else [], 0⟩ } := by rw [faultRest_eq]

theorem faultRest_tu (s : State) : (faultRest s).tu = { s.tu with
    quiet := none, tally := none, opening := none, cutShort := false, heldOpen := none, sendList := [], inbound := []
    computing := none, result := none } := by rw [faultRest_eq]

/-- At the fault a PENDING command is refused and the station halts (R129, R130). -/
theorem faultRest_tp (s : State) : (faultRest s).tp = { s.tp with
    station := .halted, busy := (faultRest s).tp.busy, hand := none, response := (faultRest s).tp.response
    events := s.tp.events ||| 0x04 } := by
  cases h : s.tp.hand with
  | none => simp [faultRest, faultTp, faultTu, faultDq, h]; rfl
  | some x => simp [faultRest, faultTp, faultTu, faultDq, h]; rfl

theorem faultRest_idle (h : s.tp.hand = none) :
    (faultRest s).tp.busy = s.tp.busy ∧ (faultRest s).tp.response = s.tp.response := by
  simp [faultRest, faultTp, faultTu, faultDq, h]

theorem faultRest_inHand (h : s.tp.hand.isSome = true) : (faultRest s).tp.busy = false ∧ (faultRest s).tp.response =
    { s.tp.response with result := .refused, reason := .storeFault, tag := 0, data := [] } := by
  simp [faultRest, faultTp, faultTu, faultDq, h]

/-- The waiting notices at the fault, a LOSS of a discarded record among them as its FAULT (R85, R103). -/
def faultDue (s : State) : List DueNotice := dueAtFault { s with su := { s.su with
  due := s.su.due ++ (faultDeps s).filterMap lossFault } }

/-- The places that are free for them (R178). -/
def faultFree (s : State) : Nat := 16 - s.tp.notices.length - (faultNotices s).length - (s.tp.taken - faultPlaces s)

theorem enteringAtFault_holdsEnded (s : State) : enteringAtFault (holdsEnded s) = (faultDue s).take (faultFree s) := by
  rw [holdsEnded_frame, enteringAtFault, freePlaces, faultFree, Nat.sub_sub 16, ← List.length_append]
  rfl

theorem waitingAtFault_holdsEnded (s : State) : waitingAtFault (holdsEnded s) = (faultDue s).drop (faultFree s) := by
  rw [holdsEnded_frame, waitingAtFault, freePlaces, faultFree, Nat.sub_sub 16, ← List.length_append]
  rfl

theorem dueAtFault_holdsEnded (s : State) : dueAtFault (holdsEnded s) = faultDue s := by
  rw [holdsEnded_frame]
  rfl

theorem holdsEnded_tp (s : State) : (holdsEnded s).tp = { s.tp with
    notices := s.tp.notices ++ faultNotices s, taken := s.tp.taken - faultPlaces s
    events := s.tp.events ||| noticed (faultNotices s) } := by rw [holdsEnded_frame]

theorem holdsEnded_ctu (s : State) : (holdsEnded s).ctu = { s.ctu with
    holds := (freeEntries (localHolds s) s).ctu.holds, held := (freeEntries (localHolds s) s).ctu.held } := by
  rw [holdsEnded_frame]

theorem holdsEnded_su (s : State) : (holdsEnded s).su = { s.su with
    due := s.su.due ++ (faultDeps s).filterMap lossFault } := by rw [holdsEnded_frame]

theorem holdsEnded_lc (s : State) : (holdsEnded s).lc = { s.lc with
    tx0 := ⟨s.lc.tx0.frames ++ (faultDeps s).filterMap degradedAnswer,
      s.lc.tx0.reserved - ((faultDeps s).filterMap degradedAnswer).length⟩ } := by rw [holdsEnded_frame]

theorem holdsEnded_dq (s : State) : (holdsEnded s).dq = s.dq := by rw [holdsEnded_frame]

theorem holdsEnded_ps (s : State) : (holdsEnded s).ps = ⟨{ s.ps.store with torn := true }, [], 0, []⟩ := by
  rw [holdsEnded_frame]

theorem holdsEnded_tu (s : State) : (holdsEnded s).tu = s.tu := by rw [holdsEnded_frame]

theorem holdsEnded_choices (s : State) : (holdsEnded s).choices = s.choices := by rw [holdsEnded_frame]

section Blocks
variable (h : Table.rises s.su.slots = true)
include h

theorem rises_slots_holdsEnded : Table.rises (holdsEnded s).su.slots = true := by
  rw [holdsEnded_su]
  exact h

theorem storeFaulted_tp : (storeFaulted s).tp = { s.tp with
    station := .halted, busy := (storeFaulted s).tp.busy, hand := none, response := (storeFaulted s).tp.response
    notices := s.tp.notices ++ faultNotices s ++ ((faultDue s).take (faultFree s)).map (·.notice)
    taken := s.tp.taken - faultPlaces s
    events := s.tp.events ||| 0x04 |||
      noticed (faultNotices s ++ ((faultDue s).take (faultFree s)).map (·.notice)) } := by
  have hf := faultSlots_tp (rises_slots_holdsEnded h)
  rw [enteringAtFault_holdsEnded, holdsEnded_tp] at hf
  have ht := faultRest_tp (faultSlots (holdsEnded s))
  rw [hf] at ht
  rw [noticed_append, BitVec.or_assoc, BitVec.or_comm 0x04, ← BitVec.or_assoc, ← BitVec.or_assoc]
  exact ht

theorem storeFaulted_ctu : (storeFaulted s).ctu = { s.ctu with
    holds := (freeEntries (localHolds s) s).ctu.holds, held := (freeEntries (localHolds s) s).ctu.held } := by
  rw [storeFaulted_eq, faultRest_ctu, faultSlots_ctu (rises_slots_holdsEnded h), holdsEnded_ctu]

theorem storeFaulted_su : (storeFaulted s).su = { s.su with
    slots := (storeFaulted s).su.slots
    due := (faultDue s).drop (faultFree s) ++ (unended (faultDue s) s.su.slots).map slotFault } := by
  have hf := faultSlots_su (rises_slots_holdsEnded h)
  rw [waitingAtFault_holdsEnded, dueAtFault_holdsEnded, holdsEnded_su] at hf
  rw [storeFaulted_eq, faultRest_su]
  exact hf

theorem slotAt_storeFaulted (n : Nat) : slotAt (storeFaulted s) n =
    if endsSlot ((faultDue s).take (faultFree s)) n then none
    else if endsSlot ((faultDue s).drop (faultFree s)) n then slotAt s n else (slotAt s n).map notifying := by
  have hat := (faultSlots_eq (rises_slots_holdsEnded h)).2 n
  have hh : slotAt (holdsEnded s) n = slotAt s n := by rw [slotAt, holdsEnded_su, slotAt]
  rw [enteringAtFault_holdsEnded, waitingAtFault_holdsEnded, hh] at hat
  rw [← hat, slotAt, storeFaulted_eq, faultRest_su, slotAt]

theorem slotAt_storeFaulted_of_some {n : Nat} {sl : Slot} (hn : slotAt s n = some sl) : slotAt (storeFaulted s) n =
    if endsSlot (faultDue s) n = false then some (notifying sl)
    else if endsSlot ((faultDue s).drop (faultFree s)) n = true ∧ endsSlot ((faultDue s).take (faultFree s)) n = false
      then some sl else none := by
  have hd : endsSlot (faultDue s) n =
      (endsSlot ((faultDue s).take (faultFree s)) n || endsSlot ((faultDue s).drop (faultFree s)) n) := by
    rw [← endsSlot_append, List.take_append_drop]
  rw [slotAt_storeFaulted h, hn, hd]
  cases endsSlot ((faultDue s).take (faultFree s)) n with
  | true => simp
  | false => cases endsSlot ((faultDue s).drop (faultFree s)) n <;> simp

theorem storeFaulted_dq : (storeFaulted s).dq = { s.dq with reply := none, pending := none } := by
  rw [storeFaulted_eq, faultRest_dq, faultSlots_dq (rises_slots_holdsEnded h), holdsEnded_dq]

theorem storeFaulted_lc : (storeFaulted s).lc = { s.lc with
    tx0 := ⟨s.lc.tx0.frames ++ (faultDeps s).filterMap degradedAnswer,
      s.lc.tx0.reserved - ((faultDeps s).filterMap degradedAnswer).length⟩
    tx1 := { s.lc.tx1 with reserved := 0 }
    tx2 := ⟨if s.lc.sending = some .c2 then s.lc.tx2.frames.take 1 else [], 0⟩
    tx3 := ⟨if s.lc.sending = some .c3 then s.lc.tx3.frames.take 1 else [], 0⟩ } := by
  rw [storeFaulted_eq, faultRest_lc, faultSlots_lc (rises_slots_holdsEnded h), holdsEnded_lc]

theorem storeFaulted_ps : (storeFaulted s).ps = ⟨{ s.ps.store with torn := true }, [], 0, []⟩ := by
  rw [storeFaulted_eq, faultRest_ps, faultSlots_ps (rises_slots_holdsEnded h), holdsEnded_ps]

theorem storeFaulted_tu : (storeFaulted s).tu = { s.tu with
    quiet := none, tally := none, opening := none, cutShort := false, heldOpen := none, sendList := [], inbound := []
    computing := none, result := none } := by
  rw [storeFaulted_eq, faultRest_tu, faultSlots_tu (rises_slots_holdsEnded h), holdsEnded_tu]

theorem storeFaulted_choices : (storeFaulted s).choices = s.choices := by
  rw [storeFaulted_eq, faultRest_choices, faultSlots_choices (rises_slots_holdsEnded h), holdsEnded_choices]

theorem storeFaulted_idle (hh : s.tp.hand = none) :
    (storeFaulted s).tp.busy = s.tp.busy ∧ (storeFaulted s).tp.response = s.tp.response := by
  have hf := faultSlots_tp (rises_slots_holdsEnded h)
  rw [holdsEnded_tp] at hf
  have hi := faultRest_idle (s := faultSlots (holdsEnded s)) (by rw [hf]; exact hh)
  rw [hf] at hi
  exact hi

theorem storeFaulted_inHand (hh : s.tp.hand.isSome = true) : (storeFaulted s).tp.busy = false ∧
    (storeFaulted s).tp.response =
      { s.tp.response with result := .refused, reason := .storeFault, tag := 0, data := [] } := by
  have hf := faultSlots_tp (rises_slots_holdsEnded h)
  rw [holdsEnded_tp] at hf
  have hi := faultRest_inHand (s := faultSlots (holdsEnded s)) (by rw [hf]; exact hh)
  rw [hf] at hi
  exact hi

end Blocks

theorem storeFault_exec {r : PostingRecord} {rest : List PostingRecord} (hr : isRunning s = true)
    (h0 : s.tp.startup = .none) (hq : s.ps.queue = r :: rest) (ht : s.ps.timer = 0) :
    exec .storeFault s = .next (storeFaulted s) := by
  have hne : s.tp.startup ≠ .finishing := by rw [h0]; decide
  show execStoreFault s = _
  simp only [execStoreFault, hq, hr, ht, and_self, if_true, if_neg hne]

/-- The frame of the store fault: `choices` and the queue of pending commands stay. -/
theorem storeFaulted_frame (h : Table.rises s.su.slots = true) : storeFaulted s = { s with
    tp := (storeFaulted s).tp, ctu := (storeFaulted s).ctu, su := (storeFaulted s).su, dq := (storeFaulted s).dq
    lc := (storeFaulted s).lc, ps := (storeFaulted s).ps, tu := (storeFaulted s).tu } :=
  State.ext rfl rfl rfl rfl rfl rfl rfl (storeFaulted_choices h) (storeFaulted_pending s)

theorem holdAt_storeFaulted (h : Table.rises s.su.slots = true) (hr : Table.rises s.ctu.holds = true) (i : Nat) :
    holdAt (storeFaulted s) i =
      if ((localHolds s).any fun e => e.1 == i) = true then ⟨(holdAt s i).gen, none⟩ else holdAt s i := by
  rw [← holdAt_freeEntries _ hr, holdAt, storeFaulted_ctu h, holdAt]

theorem heldOf_storeFaulted (h : Table.rises s.su.slots = true) (hr : Table.rises s.ctu.held = true) (k : Nat) :
    heldOf (storeFaulted s) k =
      heldOf s k - (((localHolds s).filter fun e => e.2.serial == k).map fun e => e.2.grant).sum := by
  rw [← heldOf_freeEntries _ hr, heldOf, storeFaulted_ctu h, heldOf]

theorem unended_slotFault (due : List DueNotice) (t : Table Slot) : (unended due t).map slotFault = t.filterMap fun x =>
    if endsSlot due x.1 = true then none
    else some ⟨{ plainNotice x.2.tag x.2.card .fault with amountA := x.2.amount }, some x.1, true⟩ := by
  rw [unended, ← List.filterMap_eq_map, List.filterMap_filter]
  refine List.filterMap_congr fun x _ => ?_
  cases endsSlot due x.1 <;> rfl

end Fault

/-- The record's effect on each durable area (R123, R128). -/
theorem applyUpdate_areas (st : Store) (k : Nat) (card : CardRecord) (n : Station) (l : PairLine) (m : PairMark)
    (x : Option RoundPart) (hc : Table.rises st.cards = true) (hl : Table.rises st.live = true)
    (hg : Table.rises st.closing = true) (hm : Table.rises st.marks = true) :
    (∀ j, Table.get blankStoredCard (applyUpdate st (.card k card)).cards j =
      if j = k then storeCard card else Table.get blankStoredCard st.cards j) ∧
    (∀ j, Table.get blankLine (applyUpdate st (.pairLive n l)).live j =
      if j = n.toNat then l else Table.get blankLine st.live j) ∧
    (∀ j, Table.get blankLine (applyUpdate st (.pairClosing n l m x)).closing j =
      if j = n.toNat then l else Table.get blankLine st.closing j) ∧
    (∀ j, Table.get 0 (applyUpdate st (.pairClosing n l m x)).marks j =
      if j = n.toNat then markCode m else Table.get 0 st.marks j) ∧
    ∀ j, Table.find (applyUpdate st (.peerFigures n l)).figures j = if j = n.toNat then some l else Table.find st.figures j :=
  ⟨Table.get_set _ k _ hc, Table.get_set _ n.toNat _ hl, Table.get_set _ n.toNat _ hg, Table.get_set _ n.toNat _ hm,
    Table.find_put _ n.toNat _⟩

/-- Settles O59: the completion (R125, R127), the areas (R123), each release (R127), the degraded answers (R62), the fault. -/
theorem storeEvents : Obligations.StoreEvents := by
  refine ⟨fun s r rest => writeCompletion_taken, ?areas, ?release, ?degraded, ?fault⟩
  case areas =>
    intro st k card n l m r x t ms p c d tag log a
    refine ⟨rfl, rfl, rfl, rfl, rfl, rfl, rfl, rfl, fun hc hl hg hm => ?_⟩
    obtain ⟨card', live, closing, marks, figures⟩ := applyUpdate_areas st k card n l m x hc hl hg hm
    exact ⟨rfl, card', rfl, live, rfl, closing, marks, rfl, figures, rfl, rfl⟩
  case release =>
    intro s dst b n asked k tag m day settle
    refine ⟨rfl, rfl, ?_, ?_, rfl, ?_, rfl, rfl, releaseOpened_eq day settle s, releasePayout_eq day s⟩
    · rintro t rfl
      refine ⟨releasePlaced_frame n s, fun h => ?_, fun i h ho hl hr => ?_⟩
      · rw [release, releasePlaced_other h]; rfl
      · rw [release, releasePlaced_granted ho hl]
        have hat := holdAt_putHold (s := enterPlaced n s) i ⟨(holdAt s i).gen, some { h with places := 1 }⟩ hr
        exact ⟨(hat i).trans (if_pos rfl), fun j hj => (hat j).trans (if_neg hj)⟩
    · rintro t rfl
      exact ⟨releaseSlotFrame_frame k tag dst b s, fun sl hs h1 h2 h3 => releaseSlotFrame_asking dst b hs ⟨h1, h2, h3⟩,
        releaseSlotFrame_other dst b⟩
    · rintro t rfl
      exact ⟨releaseDqFrame_frame dst b s, fun e => releaseDqFrame_sent, releaseDqFrame_of_none⟩
  case degraded => exact fun t a b c d p r q => ⟨rfl, rfl, rfl, rfl, fun x => rfl⟩
  case fault =>
    intro s r rest ds ls answers faults entered due left hr h0 hq ht hsl hho hhe hds hls hans hfa hdu
    subst hds
    have hls' : ls = localHolds s := by
      rw [hls, localHolds]
      exact List.filter_congr fun e _ => by by_cases h : e.2.places = 0 <;> simp [h]
    subst hls'
    have hans' : answers = (faultDeps s).filterMap degradedAnswer := by
      rw [hans, faultDeps]
      exact List.filterMap_congr fun d _ => by cases d <;> rfl
    have hfa' : faults = faultNotices s := by
      rw [hfa, faultNotices, faultDeps]
      refine congrArg (· ++ _) (List.filterMap_congr fun d _ => ?_)
      cases d with
      | placed n asked => simp only [placedFault, grantedOfLive, Bool.and_eq_true, decide_eq_true_eq]; rfl
      | _ => rfl
    have hdu' : due = faultDue s := by
      rw [hdu, faultDue, dueAtFault, faultDeps]
      refine congrArg (List.filter _) (congrArg (s.su.due ++ ·) (List.filterMap_congr fun d _ => ?_))
      cases d <;> rfl
    subst hans' hfa' hdu'
    refine ⟨_, storeFault_exec hr h0 hq ht, fun hen hle => ?_⟩
    have hfree : 16 - s.tp.notices.length - (faultNotices s).length - (storeFaulted s).tp.taken = faultFree s := by
      rw [storeFaulted_tp hsl, faultFree]
    rw [hfree] at hen hle ⊢
    subst hen hle
    refine ⟨?_, storeFaulted_idle hsl, storeFaulted_inHand hsl, ?_, holdAt_storeFaulted hsl hho, heldOf_storeFaulted hsl hhe,
      ?_, fun n sl hn => ?_, storeFaulted_dq hsl, storeFaulted_lc hsl, storeFaulted_ps hsl, storeFaulted_tu hsl,
      storeFaulted_frame hsl⟩
    · rw [← faultPlaces_eq]
      refine (storeFaulted_tp hsl).trans ?_
      simp only [noticed, List.append_eq_nil_iff]
      rfl
    · rw [storeFaulted_ctu hsl]
    · refine (storeFaulted_su hsl).trans ?_
      rw [unended_slotFault]
      rfl
    · exact slotAt_storeFaulted_of_some hsl hn

end Sys2Proof.Machine

/-! ## The completion queue and its taken places (R59, R178, R180)

`port s` is what the laws of NOTICE and of the places read of the state; each operation is tied to what it does to it, and
`PortStep` is what every command keeps. -/
namespace Sys2Proof.Machine
open Safety

/-! ### The port view -/

/-- The notices, the taken places, NOTICE, the hold table, and the number of placed notices attached to records. -/
structure Port where
  notices : List Notice
  taken : Nat
  shown : Bool
  holds : Table HoldEntry
  placed : Nat

/-- The placed notices attached to the records of a queue. -/
def placedIn (q : List PostingRecord) : Nat := (q.flatMap (·.deps)).countP isPlaced

def port (s : State) : Port := ⟨s.tp.notices, s.tp.taken, isPending s .notice, s.ctu.holds, placedIn s.ps.queue⟩

namespace Port

/-- The places kept by an entry of the hold table: one by a live local hold (R59). -/
def keptBy (e : HoldEntry) : Nat := if (e.live.any fun h => h.places != 0) = true then 1 else 0

/-- NOTICE is pending while a notice stands (R180). -/
def Shows (p : Port) : Prop := p.notices = [] ∨ p.shown = true

/-- The place law, with this many taken places kept for nothing yet (R178). -/
def HasPlaces (n : Nat) (p : Port) : Prop :=
  Table.rises p.holds = true ∧ p.notices.length + p.taken ≤ 16 ∧ p.placed + Table.total keptBy p.holds + n ≤ p.taken

def enter (n : Notice) (p : Port) : Port := { p with notices := p.notices ++ [n], shown := true }
def take (n : Nat) (p : Port) : Port := { p with taken := p.taken + n }
def give (n : Nat) (p : Port) : Port := { p with taken := p.taken - n }
def attach (n : Nat) (p : Port) : Port := { p with placed := p.placed + n }
def putHold (i : Nat) (e : HoldEntry) (p : Port) : Port := { p with holds := Table.set blankHold p.holds i e }

@[simp] theorem attach_zero (p : Port) : p.attach 0 = p := rfl

section Rules
variable {n : Nat} {p : Port}

theorem HasPlaces.weaken {m : Nat} (h : p.HasPlaces n) (hm : m ≤ n) : p.HasPlaces m := by
  obtain ⟨hr, hl, hk⟩ := h
  exact ⟨hr, hl, by omega⟩

theorem HasPlaces.take {k : Nat} (h : p.HasPlaces n) (hk : p.notices.length + p.taken + k ≤ 16) :
    (p.take k).HasPlaces (n + k) := by
  obtain ⟨hr, hl, hn⟩ := h
  exact ⟨hr, by simpa [Port.take, Nat.add_assoc] using hk, by simp only [Port.take]; omega⟩

theorem HasPlaces.attach {k : Nat} (h : p.HasPlaces (n + k)) : (p.attach k).HasPlaces n := by
  obtain ⟨hr, hl, hn⟩ := h
  exact ⟨hr, hl, by simp only [Port.attach]; omega⟩

/-- A notice enters a free place. -/
theorem HasPlaces.enter (m : Notice) (h : p.HasPlaces n) (hf : p.notices.length + p.taken < 16) :
    (p.enter m).HasPlaces n := by
  obtain ⟨hr, hl, hn⟩ := h
  exact ⟨hr, by simp only [Port.enter, List.length_append, List.length_singleton]; omega, hn⟩

/-- A notice enters the place taken for it. -/
theorem HasPlaces.enterPlaced (m : Notice) (h : p.HasPlaces (n + 1)) : ((p.give 1).enter m).HasPlaces n := by
  obtain ⟨hr, hl, hn⟩ := h
  refine ⟨hr, ?_, ?_⟩
  · simp only [Port.enter, Port.give, List.length_append, List.length_singleton]; omega
  · simp only [Port.enter, Port.give]; omega

/-- An entry of the hold table is written: the kept places change by what it keeps. -/
theorem HasPlaces.putHold {m i : Nat} {e : HoldEntry} (h : p.HasPlaces n)
    (hm : m + keptBy e ≤ n + keptBy (Table.get blankHold p.holds i)) : (p.putHold i e).HasPlaces m := by
  obtain ⟨hr, hl, hn⟩ := h
  have ht := Table.total_set keptBy i e hr (d := blankHold) rfl
  exact ⟨Table.rises_set _ _ _ hr, hl, by simp only [Port.putHold]; omega⟩

end Rules
end Port

/-- The live local holds are the entries that keep a place (R59). -/
theorem length_localHolds (s : State) : (localHolds s).length = Table.total Port.keptBy s.ctu.holds := by
  simp only [localHolds, liveHolds, Table.total]
  induction s.ctu.holds with
  | nil => rfl
  | cons e t ih =>
    rw [List.map_cons, List.sum_cons, ← ih]
    cases hl : e.2.live with
    | none => simp [hl, Port.keptBy]
    | some h => by_cases hp : h.places = 0 <;> simp [hl, Port.keptBy, hp, Nat.add_comm]

theorem placeLaw_iff (s : State) : placeLaw s ↔ (port s).HasPlaces 0 := by
  rw [placeLaw, keptPlaces, length_localHolds]
  rfl

theorem noticeLaw_iff (s : State) : noticeLaw s ↔ (port s).Shows := Iff.rfl

/-- What every command keeps of the laws of NOTICE and of the places. -/
structure PortStep (p q : Port) : Prop where
  shows : p.Shows → q.Shows
  places : p.HasPlaces 0 → q.HasPlaces 0

theorem PortStep.refl (p : Port) : PortStep p p := ⟨id, id⟩

theorem PortStep.trans {p q r : Port} (h : PortStep p q) (h' : PortStep q r) : PortStep p r :=
  ⟨h'.shows ∘ h.shows, h'.places ∘ h.places⟩

theorem PortStep.of_eq {p q : Port} (h : q = p) : PortStep p q := h ▸ .refl p

end Sys2Proof.Machine

/-! ## What the operations do to the port view -/
namespace Sys2Proof.Machine
open Safety

section View
variable (s : State)

/-! ### Single writes -/

@[simp] theorem port_complete (r : Result) (w : Reason) (g : Tag) (d : List Byte) : port (complete r w g d s) = port s := rfl
@[simp] theorem port_accept (g : Tag) (d : List Byte) : port (accept g d s) = port s := rfl
@[simp] theorem port_refuse (w : Reason) : port (refuse w s) = port s := rfl
@[simp] theorem port_refuseNamed (w : Reason) (g : Tag) : port (refuseNamed w g s) = port s := rfl
@[simp] theorem port_handTo (w : Hand) : port (handTo w s) = port s := rfl
@[simp] theorem port_takeCommand (code seq : Byte) : port (takeCommand code seq s) = port s := rfl
@[simp] theorem port_fallDue (n : Notice) (o : Option Nat) (b : Bool) : port (fallDue n o b s) = port s := rfl
@[simp] theorem port_reserve (c : TxClass) : port (reserve c s) = port s := rfl
@[simp] theorem port_unreserve (c : TxClass) : port (unreserve c s) = port s := rfl
@[simp] theorem port_enqueue (c : TxClass) (d : Station) (b : Body) : port (enqueue c d b s) = port s := rfl
@[simp] theorem port_enterReserved (c : TxClass) (d : Station) (b : Body) : port (enterReserved c d b s) = port s := rfl
@[simp] theorem port_withdraw (c : TxClass) : port (withdraw c s) = port s := rfl
@[simp] theorem port_answerNow (d : Station) (b : Body) : port (answerNow d b s) = port s := rfl
@[simp] theorem port_settleWaiting : port (settleWaiting s) = port s := rfl
@[simp] theorem port_leaveWaiting (w : WaitStep) : port (leaveWaiting w s) = port s := rfl
@[simp] theorem port_passTurn (w : Turn) : port (passTurn w s) = port s := rfl
@[simp] theorem port_popLine : port (popLine s) = port s := rfl
@[simp] theorem port_popLocal : port (popLocal s) = port s := rfl
@[simp] theorem port_putCard (k : Nat) (r : CardRecord) : port (putCard k r s) = port s := rfl
@[simp] theorem port_putHeld (k n : Nat) : port (putHeld k n s) = port s := rfl
@[simp] theorem port_putCapLog (l : CapLog) : port (putCapLog l s) = port s := rfl
@[simp] theorem port_countAtHome (st : Station) (p : HomePos) (n : Nat) : port (countAtHome st p n s) = port s := rfl
@[simp] theorem port_applyCapture (src : Station) (g : Tag) (kind : TagKind) (k amount : Nat) :
    port (applyCapture src g kind k amount s) = port s := rfl
@[simp] theorem port_applyLoad (src : Station) (g : Tag) (k amount : Nat) : port (applyLoad src g k amount s) = port s := rfl
@[simp] theorem port_applyReturn (src : Station) (g o : Tag) (k amount : Nat) :
    port (applyReturn src g o k amount s) = port s := rfl
@[simp] theorem port_putTagSeq (g : Tag) : port (putTagSeq g s) = port s := rfl
@[simp] theorem port_putSlot (n : Nat) (sl : Slot) : port (putSlot n sl s) = port s := rfl
@[simp] theorem port_freeSlot (n : Nat) : port (freeSlot n s) = port s := rfl
@[simp] theorem port_endSlot (n : Nat) (sl : Slot) (m : Notice) : port (endSlot n sl m s) = port s := rfl
@[simp] theorem port_waitStep (n : Nat) (sl : Slot) (w : SlotStep) : port (waitStep n sl w s) = port s := rfl
@[simp] theorem port_fileStep (n : Nat) (sl : Slot) (p : FilePos) (amount : Nat) (day : Option Day) (m : Notice) :
    port (fileStep n sl p amount day m s) = port s := rfl
@[simp] theorem port_slotHeld (n : Nat) (sl : Slot) (id : HoldId) (grant avail : Nat) (b : Bool) :
    port (slotHeld n sl id grant avail b s) = port s := rfl
@[simp] theorem port_putDeferred (a : DeferredArea) : port (putDeferred a s) = port s := rfl
@[simp] theorem port_putBackoff (h : Station) (b : BackoffLine) : port (putBackoff h b s) = port s := rfl
@[simp] theorem port_putMark (st : Station) (m : PairMark) : port (putMark st m s) = port s := rfl
@[simp] theorem port_putReceiver (r : Receiver) : port (putReceiver r s) = port s := rfl
@[simp] theorem port_stopSending : port (stopSending s) = port s := rfl
@[simp] theorem port_mapHead (f : TxFrame → TxFrame) (c : TxClass) : port (mapHead f c s) = port s := rfl
@[simp] theorem port_frameEnded : port (frameEnded s) = port s := rfl
@[simp] theorem port_beginComputation : port (beginComputation s) = port s := rfl
@[simp] theorem port_startSending : port (startSending s) = port s := rfl
@[simp] theorem port_dropGranted : port (dropGranted s) = port s := rfl
@[simp] theorem port_faultDq : port (faultDq s) = port s := rfl
@[simp] theorem port_faultTu : port (faultTu s) = port s := rfl

@[simp] theorem port_takePlaces (n : Nat) : port (takePlaces n s) = (port s).take n := rfl
@[simp] theorem port_freeTaken (n : Nat) : port (freeTaken n s) = (port s).give n := rfl
@[simp] theorem port_putHold (i : Nat) (e : HoldEntry) : port (putHold i e s) = (port s).putHold i e := rfl
@[simp] theorem port_makeHold (i : Nat) (h : LiveHold) :
    port (makeHold i h s) = (port s).putHold i ⟨(holdAt s i).gen + 1, some h⟩ := rfl
@[simp] theorem port_freeEntry (i : Nat) (h : LiveHold) :
    port (freeEntry i h s) = (port s).putHold i ⟨(holdAt s i).gen, none⟩ := rfl

theorem isPending_notice : isPending s .notice = s.tp.events.getLsbD 0 := by
  rw [Bool.eq_iff_iff, isPending, bne_iff_ne, and_ne_zero_iff]
  have hb : ∀ i, (eventBit .notice).getLsbD i = decide (i = 0) := fun i => by
    rw [show eventBit .notice = BitVec.twoPow 8 0 from rfl, BitVec.getLsbD_twoPow]
    simp [eq_comm]
  simp [hb]

/-- Another event leaves NOTICE as it is (R180). -/
@[simp] theorem port_setEvent {e : Event} (he : e ≠ .notice) : port (setEvent e s) = port s := by
  have hb : (eventBit e).getLsbD 0 = false := by
    cases e with
    | notice => exact absurd rfl he
    | _ => rfl
  have hp : isPending (setEvent e s) .notice = isPending s .notice := by
    simp only [isPending_notice, setEvent, BitVec.getLsbD_or, hb, Bool.or_false]
  simp only [port, hp]
  rfl

@[simp] theorem port_enterNotice (n : Notice) : port (enterNotice n s) = (port s).enter n := by
  have hb : (eventBit .notice).getLsbD 0 = true := rfl
  have hp : isPending (enterNotice n s) .notice = true := by
    simp only [isPending_notice, enterNotice, setEvent, BitVec.getLsbD_or, hb, Bool.or_true]
  simp only [port, hp]
  rfl

@[simp] theorem port_enterPlaced (n : Notice) : port (enterPlaced n s) = ((port s).give 1).enter n := by simp [enterPlaced]

/-! ### Records and their dependents (R41, R59, R69, R127) -/

theorem placedIn_cons (r : PostingRecord) (q : List PostingRecord) :
    placedIn (r :: q) = r.deps.countP isPlaced + placedIn q := by
  simp [placedIn, List.flatMap_cons, List.countP_append]

theorem placedIn_append (p q : List PostingRecord) : placedIn (p ++ q) = placedIn p + placedIn q := by
  simp [placedIn, List.flatMap_append, List.countP_append]

@[simp] theorem port_makeRecord (us : List AreaUpdate) (ds : List Dependent) :
    port (makeRecord us ds s) = (port s).attach (ds.countP isPlaced) := by
  have hq : placedIn (makeRecord us ds s).ps.queue = placedIn s.ps.queue + ds.countP isPlaced := by
    rw [makeRecord_ps, placedIn_append]
    simp [placedIn]
  simp only [port, hq]
  rfl

@[simp] theorem port_recordWithAnswer (us : List AreaUpdate) (dst : Station) (b : Body) :
    port (recordWithAnswer us dst b s) = port s := by simp [recordWithAnswer, isPlaced]

theorem placedIn_attachYoungest {d : Dependent} (hd : isPlaced d = false) :
    ∀ q : List PostingRecord, placedIn (attachYoungest d q) = placedIn q
  | [] => rfl
  | [r] => by simp [attachYoungest, placedIn, hd]
  | r :: r' :: q => by
    rw [attachYoungest, placedIn_cons, placedIn_attachYoungest hd (r' :: q), ← placedIn_cons]
    exact List.cons_ne_nil r' q

@[simp] theorem port_answerAfterRecords (dst : Station) (b : Body) : port (answerAfterRecords dst b s) = port s := by
  unfold answerAfterRecords
  split
  · rfl
  · simp only [port, placedIn_attachYoungest (d := .answer dst b) rfl]
    rfl

/-- A slot's frames leave a queue with its placed notices (R69). -/
theorem placedIn_withdrawn (n : Nat) (g : Tag) (q : List PostingRecord) :
    placedIn (q.map fun r => { r with deps := r.deps.filter fun d => !isFrameOf n g d }) = placedIn q := by
  have hf : ∀ d, (isPlaced d && !isFrameOf n g d) = isPlaced d := fun d => by cases d <;> rfl
  induction q with
  | nil => rfl
  | cons r q ih => rw [List.map_cons, placedIn_cons, placedIn_cons, ih, List.countP_filter]; simp only [hf]

@[simp] theorem port_withdrawRequest (n : Nat) (g : Tag) : port (withdrawRequest n g s) = port s := by
  unfold withdrawRequest
  split
  · simp only [port, unreserve_ps, placedIn_withdrawn]
    rfl
  · rfl

/-- A notice attached behind GRANTED is one placed notice more (R59). -/
theorem placedIn_attachAfterGranted {g : Tag} {n : Notice} {asked : Nat} {q : List PostingRecord}
    (h : (q.any fun r => r.deps.any (isGrantedOf g)) = true) :
    placedIn (attachAfterGranted g (.placed n asked) q) = placedIn q + 1 := by
  induction q with
  | nil => cases h
  | cons r q ih =>
    unfold attachAfterGranted
    split
    · simp [placedIn_cons, isPlaced]; omega
    · next hr =>
      rw [List.any_cons, Bool.eq_false_iff.2 hr, Bool.false_or] at h
      rw [placedIn_cons, placedIn_cons, ih h, Nat.add_assoc]

/-- The second notice of a local hold takes its place at once, or is attached for it (R59). -/
theorem port_secondNotice (h : LiveHold) (n : Notice) (asked : Nat) :
    port (secondNotice h n asked s) = (port s).attach 1 ∨ port (secondNotice h n asked s) = ((port s).give 1).enter n := by
  unfold secondNotice
  split
  · next hq =>
    refine .inl ?_
    simp only [port, placedIn_attachAfterGranted hq]
    rfl
  · exact .inr (port_enterPlaced s n)

/-- A fold of steps that leave the port view leaves it. -/
theorem port_foldl {α : Type} (f : State → α → State) (h : ∀ s a, port (f s a) = port s) (l : List α) (s : State) :
    port (l.foldl f s) = port s := by
  induction l generalizing s with
  | nil => rfl
  | cons a l ih => rw [List.foldl_cons, ih, h]

/-! ### Filings and answers of the Card Table Unit -/

@[simp] theorem port_restartComputation : port (restartComputation s) = port s := by
  unfold restartComputation
  split <;> rfl

@[simp] theorem port_fileActor (home : Station) (p : FilePos) (amount : Nat) (day : Day) :
    port (fileActor home p amount day s).1 = port s := by
  unfold fileActor
  cases filePlace s home day <;> simp only [reduceCtorEq, if_true, if_false]
  · rfl
  · rfl
  · split_ifs <;> simp <;> rfl

@[simp] theorem port_announce (src : Station) (g : Tag) : port (announce src g s) = port s := by
  unfold announce
  split <;> rfl

@[simp] theorem port_applyPost (src : Station) (g : Tag) (k amount taken : Nat) (r : Reason) :
    port (applyPost src g k amount taken r s) = port s := by
  simp only [applyPost]
  split <;> simp

@[simp] theorem port_decidePost (src : Station) (g : Tag) (card : CardNo) (check : Check) (amount : Nat) :
    port (decidePost src g card check amount s) = port s := by
  simp only [decidePost]
  (repeat' split) <;> simp

@[simp] theorem port_decideLoad (src : Station) (g : Tag) (card : CardNo) (check : Check) (amount : Nat) :
    port (decideLoad src g card check amount s) = port s := by
  simp only [decideLoad]
  (repeat' split) <;> simp

@[simp] theorem port_decideReturn (src : Station) (g : Tag) (card : CardNo) (o : Tag) (amount : Nat) :
    port (decideReturn src g card o amount s) = port s := by
  simp only [decideReturn]
  (repeat' split) <;> simp

@[simp] theorem port_decideInquire (src : Station) (g : Tag) (card : CardNo) (check : Check) (asked : Option Tag) :
    port (decideInquire src g card check asked s) = port s := by
  unfold decideInquire
  (repeat' split) <;> simp

/-! ### Slots (R68 to R84) -/

@[simp] theorem port_joinEntry (n : Nat) (sl : Slot) (e : DeferredEntry) (m : Notice) :
    port (joinEntry n sl e m s) = port s := by simp [joinEntry, isPlaced]

@[simp] theorem port_performSlotStep (n : Nat) : port (performSlotStep n s) = port s := by
  unfold performSlotStep
  (repeat' split) <;> simp [isPlaced]

@[simp] theorem port_stepIfGranted (n : Nat) : port (stepIfGranted n s) = port s := by
  unfold stepIfGranted
  split <;> simp

@[simp] theorem port_trySlot (n : Nat) : port (trySlot n s) = port s := by simp [trySlot]

@[simp] theorem port_sendDrop (sl : Slot) : port (sendDrop sl s) = port s := by
  unfold sendDrop
  (repeat' split) <;> rfl

@[simp] theorem port_releaseHeld (n : Nat) (sl : Slot) (o : NoticeOutcome) : port (releaseHeld n sl o s) = port s := by
  simp [releaseHeld]

@[simp] theorem port_tagInquiry (n : Nat) (sl : Slot) : port (tagInquiry n sl s) = port s := by
  unfold tagInquiry
  split <;> rfl

@[simp] theorem port_redeemUnanswered (n : Nat) (sl : Slot) (m : Notice) : port (redeemUnanswered n sl m s) = port s := by
  unfold redeemUnanswered
  split <;> rfl

@[simp] theorem port_noAnswer (n : Nat) (sl : Slot) : port (noAnswer n sl s) = port s := by
  unfold noAnswer
  split <;> simp

@[simp] theorem port_lineNoAnswer (n : Nat) : port (lineNoAnswer s n) = port s := by
  unfold lineNoAnswer
  (repeat' split) <;> simp

@[simp] theorem port_lineFails (l : LineState) : port (lineFails l s) = port s := by
  unfold lineFails
  rw [port_foldl _ port_lineNoAnswer, port_setEvent _ (by decide)]
  rfl

@[simp] theorem port_slotClaimNo (n : Nat) (sl : Slot) (r : Reason) : port (slotClaimNo n sl r s) = port s := by
  unfold slotClaimNo
  split <;> simp

@[simp] theorem port_slotBalance (n : Nat) (sl : Slot) (c : CardState) (bal avail : Nat) (q : TagResult) :
    port (slotBalance n sl c bal avail q s) = port s := by
  unfold slotBalance
  split <;> rfl

@[simp] theorem port_slotAnswer (n : Nat) (sl : Slot) (b : Body) : port (slotAnswer n sl b s) = port s := by
  unfold slotAnswer
  (repeat' split) <;> simp

@[simp] theorem port_takeOpening (r : OpenReq) : port (takeOpening r s) = port s := by
  simp only [takeOpening]
  (repeat' split) <;> simp [isPlaced]

@[simp] theorem port_confirmSlot (g : Tag) (amount : Nat) : port (confirmSlot g amount s) = port s := by
  simp only [confirmSlot]
  (repeat' split) <;> simp

@[simp] theorem port_cancelSlot (g : Tag) : port (cancelSlot g s) = port s := by
  unfold cancelSlot
  split <;> simp

/-! ### The Deferred Queue (R89 to R99) -/

theorem countP_isPlaced_loss (loss : Option Notice) : ((loss.map Dependent.loss).toList).countP isPlaced = 0 := by
  cases loss <;> rfl

@[simp] theorem port_performDqStep : port (performDqStep s) = port s := by
  have hp (a : DeferredArea) : port (putDeferred a { s with dq := { s.dq with pending := none } }) = port s := rfl
  unfold performDqStep
  split
  · split
    · simp only [port_makeRecord, hp]; rfl
    · simp only [port_makeRecord, hp]; rfl
    · simp only [port_makeRecord, countP_isPlaced_loss]
      split <;> simp only [port_fileActor, hp] <;> rfl
  · rfl

@[simp] theorem port_dqStepIfGranted : port (dqStepIfGranted s) = port s := by
  unfold dqStepIfGranted
  split <;> simp

@[simp] theorem port_dqDecide (w : DqStep) : port (dqDecide w s) = port s := by
  simp only [dqDecide, port_dqStepIfGranted, port_settleWaiting]
  rfl

@[simp] theorem port_dqAnswer (e : DeferredEntry) (b : Body) : port (dqAnswer e b s) = port s := by
  unfold dqAnswer
  split
  · rfl
  all_goals (repeat' split) <;> simp

@[simp] theorem port_offerAnswer (src : Station) (b : Body) : port (offerAnswer src b s) = port s := by
  unfold offerAnswer
  (repeat' split) <;> simp

@[simp] theorem port_forward (e : DeferredEntry) : port (forward e s) = port s := by simp [forward, isPlaced]

/-! ### The settlement round (R142 to R154) -/

@[simp] theorem port_takeSettle (d : Day) : port (takeSettle d s) = port s := by
  unfold takeSettle
  (repeat' split) <;> rfl

@[simp] theorem port_tallyOpenArrives (src : Station) (d : Day) : port (tallyOpenArrives src d s) = port s := by
  unfold tallyOpenArrives
  (repeat' split) <;> simp <;> rfl

@[simp] theorem port_openRound (o : Opening) : port (openRound o s) = port s := by
  simp only [openRound, port_makeRecord]
  rfl

@[simp] theorem port_comparePeer (st : Station) : port (comparePeer st s) = port s := by
  unfold comparePeer
  split <;> rfl

@[simp] theorem port_tallyTo (st : Station) (rest : List Station) : port (tallyTo st rest s) = port s := by
  simp only [tallyTo]
  split <;> (simp [isPlaced]; rfl)

@[simp] theorem port_tallyArrives (src : Station) (d : Day) (b : PairLine) : port (tallyArrives src d b s) = port s := by
  unfold tallyArrives
  split <;> rfl

@[simp] theorem port_receive (i : Inbound) : port (receive i s) = port s := by
  simp only [receive]
  split <;> (simp; rfl)

@[simp] theorem port_makePayout (p : PayoutRecord PairState) : port (makePayout p s) = port s := by
  simp only [makePayout, port_makeRecord]
  rfl

@[simp] theorem port_cutShortPeer (before : StationSet) (st : Station) : port (cutShortPeer before s st) = port s := by
  unfold cutShortPeer
  split <;> simp

@[simp] theorem port_cutShort : port (cutShort s) = port s := by
  simp only [cutShort, port_makeRecord, port_beginComputation, port_foldl _ fun t => port_cutShortPeer t _]
  rfl

@[simp] theorem port_takeRecount : port (takeRecount s) = port s := by
  unfold takeRecount
  (repeat' split) <;> rfl

@[simp] theorem port_resumeRound : port (resumeRound s) = port s := by
  unfold resumeRound
  split <;> rfl

/-! ### Frames received, configuration, routing -/

@[simp] theorem port_deliver (src : Station) (b : Body) : port (deliver src b s) = port s := by
  unfold deliver
  split
  · exact port_tallyOpenArrives s src _
  · exact port_tallyArrives s src _ _
  · split
    · rfl
    · exact port_offerAnswer s src b

@[simp] theorem port_takenFrame (src dst : Station) (b : Body) : port (takenFrame src dst b s) = port s := by
  unfold takenFrame
  (repeat' split) <;> simp

@[simp] theorem port_makeConfigure (c : ConfigRecord) (m : BitVec 16) (j : StationSet) :
    port (makeConfigure c m j s) = port s := by
  simp only [makeConfigure, port_makeRecord]
  rfl

@[simp] theorem port_tryConfigure : port (tryConfigure s) = port s := by
  unfold tryConfigure
  (repeat' split) <;> simp

@[simp] theorem port_takeConfigure (p : ConfigParams) : port (takeConfigure p s) = port s := by
  unfold takeConfigure
  split <;> simp

@[simp] theorem port_joined : port (joined s) = port s := by
  rw [joined, port_resumeRound]
  rfl

@[simp] theorem port_routeHomeOp (card : CardNo) (op : HomeOp) : port (routeHomeOp card op s) = port s := by
  unfold routeHomeOp
  split <;> rfl

@[simp] theorem port_routeCard (own : LocalReq) (r : OpenReq) : port (routeCard own r s) = port s := by
  unfold routeCard routeForeign
  (repeat' split) <;> rfl

@[simp] theorem port_routeConfirm (g : Tag) (amount : Nat) : port (routeConfirm g amount s) = port s := by
  unfold routeConfirm
  (repeat' split) <;> simp

@[simp] theorem port_routeCancel (g : Tag) : port (routeCancel g s) = port s := by
  unfold routeCancel
  split <;> simp

end View
end Sys2Proof.Machine

/-! ## What every command keeps of NOTICE and of the taken places (R59, R178, R180) -/
namespace Sys2Proof.Machine
open Safety

/-! ### Steps of the port view -/

namespace PortStep
variable {p : Port}

/-- A place taken for the notice attached to a record (R178). -/
theorem placedRecord (hf : p.notices.length + p.taken + 1 ≤ 16) : PortStep p ((p.take 1).attach 1) :=
  ⟨id, fun h => (h.take hf).attach⟩

/-- The entry of a notice into a free place (R178). -/
theorem enter (n : Notice) (hf : p.notices.length + p.taken < 16) : PortStep p (p.enter n) :=
  ⟨fun _ => .inr rfl, fun h => h.enter n hf⟩

/-- An entry of the hold table that keeps no place (R42). -/
theorem putHold_other (i : Nat) {e : HoldEntry} (he : Port.keptBy e = 0) : PortStep p (p.putHold i e) :=
  ⟨id, fun h => h.putHold (by omega)⟩

/-- An entry of the hold table freed (R42). -/
theorem free (i : Nat) (g : BitVec 8) : PortStep p (p.putHold i ⟨g, none⟩) := putHold_other i rfl

/-- The blocks cleared and the queue emptied of dependents: nothing keeps a place. -/
theorem cleared (b : Bool) (hb : p.shown = true → b = true) : PortStep p { p with shown := b, holds := [], placed := 0 } :=
  ⟨fun h => h.imp id hb, fun ⟨_, hl, _⟩ => ⟨rfl, hl, Nat.zero_le _⟩⟩

/-- The completion queue emptied and no place taken. -/
theorem emptied {q : Port} (hn : q.notices = []) (ht : q.taken = 0) (hh : q.holds = []) (hp : q.placed = 0) : PortStep p q :=
  ⟨fun _ => .inl hn, fun _ => by
    refine ⟨by rw [hh]; rfl, by simp [hn, ht], ?_⟩
    rw [hp, hh, ht]
    exact Nat.le_refl 0⟩

end PortStep

/-! ### Room in the completion queue -/

section Room
variable {s : State} {k : Nat}

theorem room_of_freePlaces (h : k ≤ freePlaces s) (hk : 0 < k) :
    (port s).notices.length + (port s).taken + k ≤ 16 := by
  have hf : freePlaces s = 16 - (port s).notices.length - (port s).taken := rfl
  omega

theorem room_of_sparePlaces (h : ¬ sparePlaces s < k) (hk : 0 < k) :
    (port s).notices.length + (port s).taken + k ≤ 16 :=
  room_of_freePlaces (Nat.le_trans (Nat.le_of_not_lt h) (Nat.sub_le _ _)) hk

end Room

/-! ### The hold table -/

theorem keptBy_none (g : BitVec 8) : Port.keptBy ⟨g, none⟩ = 0 := rfl

theorem keptBy_some (g : BitVec 8) (h : LiveHold) : Port.keptBy ⟨g, some h⟩ = if h.places = 0 then 0 else 1 := by
  by_cases hp : h.places = 0 <;> simp [Port.keptBy, hp]

theorem keptBy_live {e : HoldEntry} {h : LiveHold} (hl : e.live = some h) (hp : h.places ≠ 0) : Port.keptBy e = 1 := by
  simp [Port.keptBy, hl, hp]

theorem keptBy_localHold {s : State} {g : Tag} {i : Nat} {h : LiveHold} (hr : Table.rises s.ctu.holds = true)
    (hl : localHold s g = some (i, h)) : Port.keptBy (Table.get blankHold (port s).holds i) = 1 :=
  keptBy_live (localHold_live hr hl) (by simpa using (List.mem_filter.1 (List.mem_of_find?_eq_some hl)).2)

/-! ### Takes of the Card Table Unit (R37 to R60) -/

section Takes
variable (s : State)

theorem portStep_decideHold (src : Station) (g : Tag) (card : CardNo) (check : Check) (amount : Nat) (split : Bool) :
    PortStep (port s) (port (decideHold src g card check amount split s)) := by
  simp only [decideHold]
  (repeat' split) <;> simp only [port_answerNow, PortStep.refl, port_makeHold]
  exact PortStep.putHold_other _ (keptBy_some _ _)

theorem portStep_decideClaim (src : Station) (g : Tag) (card : CardNo) (id : HoldId) (amount : Nat) (retry : Bool) :
    PortStep (port s) (port (decideClaim src g card id amount retry s)) := by
  simp only [decideClaim]
  (repeat' split) <;> simp only [port_answerNow, port_answerAfterRecords, port_recordWithAnswer, port_applyCapture,
    port_freeEntry, PortStep.refl, PortStep.free]

theorem portStep_decideDrop (src : Station) (g : Tag) (id : HoldId) :
    PortStep (port s) (port (decideDrop src g id s)) := by
  unfold decideDrop
  (repeat' split) <;> simp only [port_freeEntry, PortStep.refl, PortStep.free]

/-- A local request accepted with one place taken for its notice (R58). -/
theorem portStep_acceptLocal {u : State} (us : List AreaUpdate) (n : Notice) (asked : Nat)
    (hu : port u = (port s).take 1) (hs : ¬ sparePlaces s < 1) :
    PortStep (port s) (port (acceptLocal us n asked u)) := by
  have ha : port (acceptLocal us n asked u) = ((port s).take 1).attach 1 := by
    rw [acceptLocal, port_accept, port_makeRecord, hu]
    rfl
  rw [ha]
  exact PortStep.placedRecord (room_of_sparePlaces hs Nat.one_pos)

theorem portStep_takeHomeOp (op : HomeOp) : PortStep (port s) (port (takeHomeOp op s)) := by
  unfold takeHomeOp
  split
  · exact .refl _
  · split
    · exact .refl _
    · next hs =>
      simp only [port_accept, port_makeRecord, port_putTagSeq, port_putCard, port_takePlaces]
      exact PortStep.placedRecord (room_of_sparePlaces hs Nat.one_pos)

theorem portStep_takeLocalLoad (card : CardNo) (check : Check) (amount : Nat) :
    PortStep (port s) (port (takeLocalLoad card check amount s)) := by
  simp only [takeLocalLoad]
  split
  · exact .refl _
  · split
    · exact .refl _
    · next hs => exact portStep_acceptLocal s _ _ _ rfl hs

theorem portStep_takeLocalReturn (card : CardNo) (o : Tag) (amount : Nat) :
    PortStep (port s) (port (takeLocalReturn card o amount s)) := by
  simp only [takeLocalReturn]
  split
  · exact .refl _
  · split
    · exact .refl _
    · next hs => exact portStep_acceptLocal s _ _ _ rfl hs

theorem portStep_takeLocalInquire (card : CardNo) (check : Check) (asked : Option Tag) :
    PortStep (port s) (port (takeLocalInquire card check asked s)) := by
  simp only [takeLocalInquire]
  split
  · exact .refl _
  · split
    · exact .refl _
    · next hs => exact portStep_acceptLocal s _ _ _ rfl hs

/-- A local REDEEM: of its two places one is kept by the hold and one by the GRANTED notice (R59). -/
theorem portStep_takeLocalRedeem (card : CardNo) (check : Check) (amount : Nat) (split : Bool) :
    PortStep (port s) (port (takeLocalRedeem card check amount split s)) := by
  simp only [takeLocalRedeem]
  split
  · exact .refl _
  · split
    · exact .refl _
    · split
      · exact .refl _
      · next hs =>
        simp only [acceptLocal, port_accept, port_makeRecord, port_putTagSeq, port_makeHold, port_takePlaces]
        refine ⟨id, fun h => Port.HasPlaces.attach (k := 1) (Port.HasPlaces.putHold (n := 2) ?_ ?_)⟩
        · exact (h.take (room_of_sparePlaces hs Nat.two_pos)).weaken (Nat.le_refl 2)
        · rw [keptBy_some]
          simp

/-- A local hold ended, and its second notice in the place it kept (R59). -/
theorem portStep_secondNotice {i : Nat} {h : LiveHold} (n : Notice) (asked : Nat)
    (hk : Table.rises s.ctu.holds = true → Port.keptBy (holdAt s i) = 1) :
    PortStep (port s) (port (secondNotice h n asked (freeEntry i h s))) := by
  have hf : (port s).HasPlaces 0 → (port (freeEntry i h s)).HasPlaces 1 := fun hp =>
    hp.putHold (by rw [keptBy_none]; exact Nat.le_of_eq ((Nat.zero_add _).trans (hk hp.1)).symm)
  rcases port_secondNotice (freeEntry i h s) h n asked with he | he
  · rw [he]
    exact ⟨id, fun hp => (hf hp).attach⟩
  · rw [he]
    exact ⟨fun _ => .inr rfl, fun hp => (hf hp).enterPlaced n⟩

theorem portStep_takeLocalConfirm (g : Tag) (amount : Nat) : PortStep (port s) (port (takeLocalConfirm g amount s)) := by
  unfold takeLocalConfirm
  split
  · exact .refl _
  · next i h hl =>
    split
    · exact .refl _
    · simp only [acceptLocal, port_accept, port_makeRecord, port_applyCapture, port_freeEntry]
      exact ⟨id, fun hp => Port.HasPlaces.attach (k := 1) (hp.putHold (by
        rw [keptBy_none]; exact Nat.le_of_eq ((Nat.zero_add _).trans (keptBy_localHold hp.1 hl)).symm))⟩

theorem portStep_takeLocalCancel (g : Tag) : PortStep (port s) (port (takeLocalCancel g s)) := by
  unfold takeLocalCancel
  split
  · exact .refl _
  · next i h hl => exact portStep_secondNotice s _ _ fun hr => keptBy_localHold hr hl

theorem portStep_takeLocal (r : LocalReq) : PortStep (port s) (port (takeLocal r s)) := by
  cases r with
  | load => exact portStep_takeLocalLoad ..
  | redeem => exact portStep_takeLocalRedeem ..
  | ret => exact portStep_takeLocalReturn ..
  | inquire => exact portStep_takeLocalInquire ..
  | confirm => exact portStep_takeLocalConfirm ..
  | cancel => exact portStep_takeLocalCancel ..

/-- A RETURN against a deferred entry: a place is taken for its RETURNED notice (R100, R101). -/
theorem portStep_takeRefund (card : CardNo) (g : Tag) (amount : Nat) :
    PortStep (port s) (port (takeRefund card g amount s)) := by
  unfold takeRefund
  split
  · exact .of_eq (port_takeOpening s _)
  · split
    · exact .refl _
    · next ht =>
      have hs : ¬ sparePlaces s < 1 := fun hc => by
        unfold refundTests at ht
        split_ifs at ht
      simp only [port_accept, port_makeRecord, port_putTagSeq, port_putDeferred, port_takePlaces]
      exact PortStep.placedRecord (room_of_sparePlaces hs Nat.one_pos)

end Takes

/-! ### The completion queue (R84, R178 to R182) -/

section Queue
variable (s : State)

@[simp] theorem port_enterDue (d : DueNotice) : port (enterDue d s) = (port s).enter d.notice := by
  simp only [enterDue]
  (repeat' split) <;> simp <;> rfl

theorem portStep_enterDues {k : Nat} (h : k ≤ freePlaces s) : PortStep (port s) (port (enterDues k s)) := by
  induction k generalizing s with
  | zero => exact .refl _
  | succ k ih =>
    unfold enterDues
    split
    · next d ds hd =>
      have hr := room_of_freePlaces h k.succ_pos
      have he : PortStep (port s) (port (enterDue d s)) := by
        rw [port_enterDue]
        exact .enter _ (by omega)
      refine he.trans (ih _ ?_)
      have hf : freePlaces (enterDue d s) = 16 - (port s).notices.length - 1 - (port s).taken := by
        rw [freePlaces, enterDue_tp]
        simp [port, Nat.sub_sub, Config.notices]
      omega
    · exact .refl _

/-- TAKE-NOTICE: the oldest notice leaves its place to a waiting one (R179). -/
theorem portStep_takeNotice : PortStep (port s) (port (takeNotice s)) := by
  unfold takeNotice
  split
  · next n rest hn =>
    refine PortStep.trans ?_ (portStep_enterDues _ (Nat.min_le_right _ _))
    refine ⟨fun h => .inr (h.resolve_left fun hc => ?_), fun ⟨hr, hl, hk⟩ => ⟨hr, ?_, hk⟩⟩
    · exact List.cons_ne_nil n rest (hn.symm.trans hc)
    · have hc : (port s).notices.length = rest.length + 1 := congrArg List.length hn
      show rest.length + (port s).taken ≤ 16
      omega
  · exact .refl _

/-- NOTICE is pending after it is set again, while a notice stands (R180). -/
theorem keepNotice_shown (e : BitVec 8) (h : s.tp.notices ≠ []) : (keepNotice s e).getLsbD 0 = true := by
  have hb : (eventBit .notice).getLsbD 0 = true := rfl
  rw [keepNotice, if_neg (by simpa using h), BitVec.getLsbD_or, hb, Bool.or_true]

/-- The pending set changed, NOTICE set again while a notice stands (R181, R182). -/
theorem portStep_keepNotice {t : State} (e : BitVec 8) (ht : t.tp.events = keepNotice s e)
    (hp : port t = { port s with shown := isPending t .notice }) : PortStep (port s) (port t) := by
  rw [hp]
  refine ⟨fun _ => ?_, fun h => h⟩
  by_cases hn : s.tp.notices = []
  · exact .inl hn
  · refine .inr ?_
    show isPending t .notice = true
    rw [isPending_notice, ht, keepNotice_shown s e hn]

end Queue
end Sys2Proof.Machine

namespace Sys2Proof.Machine
open Safety

/-! ### Release (R127) -/

section Release
variable (s : State)

/-- GRANTED has entered: its hold keeps one place still (R59). -/
theorem enteredHold_places {n : Nat} (g : Tag) (h : (port s).HasPlaces n) : (port (enteredHold s g)).HasPlaces n := by
  unfold enteredHold
  split
  · next i l hl =>
    exact h.putHold (by rw [keptBy_localHold h.1 hl, keptBy_some]; exact Nat.le_refl _)
  · exact h

theorem enteredHold_shown (g : Tag) : (port (enteredHold s g)).shown = (port s).shown := by
  unfold enteredHold
  split <;> rfl

/-- A placed notice enters the place it was attached for (R127, R178). -/
theorem releasePlaced_places {n : Nat} (m : Notice) (h : (port s).HasPlaces (n + 1)) :
    (port (releasePlaced m s)).HasPlaces n := by
  have he : (port (enterPlaced m s)).HasPlaces n := by
    rw [port_enterPlaced]
    exact h.enterPlaced m
  unfold releasePlaced
  split
  · exact enteredHold_places _ _ he
  · exact he

theorem releasePlaced_shown (m : Notice) : (port (releasePlaced m s)).shown = true := by
  have he : (port (enterPlaced m s)).shown = true := by rw [port_enterPlaced]; rfl
  unfold releasePlaced
  split
  · exact (enteredHold_shown _ _).trans he
  · exact he

/-- Another dependent changes nothing of the completion queue (R127). -/
theorem port_release {d : Dependent} (hd : isPlaced d = false) : port (release d s) = port s := by
  cases d with
  | placed => cases hd
  | slotFrame slot tag dst b =>
    simp only [release, releaseSlotFrame]
    (repeat' split) <;> rfl
  | dqFrame dst b =>
    simp only [release, releaseDqFrame]
    split <;> rfl
  | opened day settle => cases settle <;> rfl
  | payoutMade day =>
    rw [release, releasePayout_eq]
    exact port_setEvent s (e := .settled) (by decide)
  | loss n => exact port_setEvent (fallDue n none false s) (e := .loss) (by decide)
  | _ => rfl

theorem release_places {n : Nat} (d : Dependent) (h : (port s).HasPlaces (n + [d].countP isPlaced)) :
    (port (release d s)).HasPlaces n := by
  cases hd : isPlaced d with
  | true =>
    obtain ⟨m, asked, rfl⟩ : ∃ m asked, d = .placed m asked := by
      cases d with
      | placed m asked => exact ⟨m, asked, rfl⟩
      | _ => cases hd
    exact releasePlaced_places s m h
  | false =>
    rw [port_release s hd]
    exact h.weaken (Nat.le_add_right _ _)

theorem release_shows (d : Dependent) (h : (port s).Shows) : (port (release d s)).Shows := by
  cases hd : isPlaced d with
  | true =>
    cases d with
    | placed m asked => exact .inr (releasePlaced_shown s m)
    | _ => cases hd
  | false => rwa [port_release s hd]

theorem releaseAll_places (ds : List Dependent) (h : (port s).HasPlaces (ds.countP isPlaced)) :
    (port (releaseAll ds s)).HasPlaces 0 := by
  induction ds generalizing s with
  | nil => exact h
  | cons d ds ih =>
    refine ih _ (release_places _ d ?_)
    rwa [← List.singleton_append, List.countP_append, Nat.add_comm] at h

theorem releaseAll_shows (ds : List Dependent) (h : (port s).Shows) : (port (releaseAll ds s)).Shows := by
  induction ds generalizing s with
  | nil => exact h
  | cons d ds ih => exact ih _ (release_shows s d h)

/-- A write's completion: the places kept for the record's notices are kept for their entry (R127). -/
theorem portStep_commit {r : PostingRecord} {rest : List PostingRecord} (hq : s.ps.queue = r :: rest) :
    PortStep (port s) (port (releaseAll r.deps (commitHead r rest s))) := by
  refine ⟨fun h => releaseAll_shows _ _ h, fun ⟨hr, hl, hk⟩ => releaseAll_places _ _ ⟨hr, hl, ?_⟩⟩
  have hp : (port s).placed = r.deps.countP isPlaced + placedIn rest := by
    show placedIn s.ps.queue = _
    rw [hq, placedIn_cons]
  have hc : (port (commitHead r rest s)).placed = placedIn rest := rfl
  show (port (commitHead r rest s)).placed + Table.total Port.keptBy (port s).holds + _ ≤ (port s).taken
  omega

end Release

/-! ### The store fault (R62, R85, R130) -/

section Fault
variable (s : State)

/-- The local holds freed, none is left (R62). -/
theorem localHolds_freeEntries (hr : Table.rises s.ctu.holds = true) : localHolds (freeEntries (localHolds s) s) = [] := by
  rw [List.eq_nil_iff_forall_not_mem]
  rintro ⟨i, l⟩ hm
  obtain ⟨hm, hp⟩ := List.mem_filter.1 hm
  have hl := holdAt_of_mem_liveHolds (rises_freeEntries _ hr) hm
  rw [holdAt_freeEntries _ hr] at hl
  split at hl
  · cases hl
  · next hn =>
    refine hn (List.any_eq_true.2 ⟨(i, l), List.mem_filter.2 ⟨mem_liveHolds.2 ⟨holdAt s i, ?_, hl⟩, hp⟩, beq_self_eq_true i⟩)
    unfold holdAt Table.get at hl ⊢
    cases hf : Table.find s.ctu.holds i with
    | none => rw [hf] at hl; cases hl
    | some e => exact Table.mem_of_find hf

theorem port_holdsEnded : port (holdsEnded s) =
    ⟨s.tp.notices ++ faultNotices s, s.tp.taken - faultPlaces s, isPending (holdsEnded s) .notice,
      (freeEntries (localHolds s) s).ctu.holds, 0⟩ := by
  rw [port, holdsEnded_tp, holdsEnded_ctu, holdsEnded_ps]
  rfl

/-- Each FAULT notice of a discarded record takes the place of a placed notice (R62). -/
theorem length_placedFaults_le (ds : List Dependent) : (ds.filterMap (placedFault s)).length ≤ ds.countP isPlaced := by
  induction ds with
  | nil => exact Nat.le_refl 0
  | cons d ds ih =>
    rw [← toList_append_filterMap, List.length_append, List.countP_cons, Nat.add_comm]
    refine Nat.add_le_add ih ?_
    cases d with
    | placed n asked => cases h : placedFault s (.placed n asked) <;> simp [isPlaced]
    | _ => exact Nat.zero_le _

/-- A local hold keeps one place at least (R59). -/
theorem length_localHolds_le : (localHolds s).length ≤ ((localHolds s).map fun e => e.2.places).sum := by
  have hl : ∀ x ∈ (localHolds s).map (fun e => e.2.places), 1 ≤ x := fun x hx => by
    obtain ⟨e, he, rfl⟩ := List.mem_map.1 hx
    exact Nat.one_le_iff_ne_zero.2 (by simpa using (List.mem_filter.1 he).2)
  simpa using List.card_nsmul_le_sum _ 1 hl

theorem getLsbD_noticed {ns : List Notice} (h : ns ≠ []) : (noticed ns).getLsbD 0 = true := by
  rw [noticed, if_neg h]
  rfl

/-- The FAULT notices enter places that were kept (R62). -/
theorem portStep_holdsEnded : PortStep (port s) (port (holdsEnded s)) := by
  rw [port_holdsEnded]
  refine ⟨fun h => ?_, fun ⟨hr, hl, hk⟩ => ⟨rises_freeEntries _ hr, ?_, ?_⟩⟩
  · have hp : isPending (holdsEnded s) .notice = (isPending s .notice || (noticed (faultNotices s)).getLsbD 0) := by
      rw [isPending_notice, isPending_notice, holdsEnded_tp, BitVec.getLsbD_or]
    by_cases hf : faultNotices s = []
    · rw [hp, hf, List.append_nil]
      exact h.imp id fun hs => by rw [Bool.or_eq_true]; exact .inl hs
    · exact .inr (by rw [hp, getLsbD_noticed hf, Bool.or_true])
  · have hP := length_placedFaults_le s (faultDeps s)
    have hL := length_localHolds_le s
    have hkept : (faultDeps s).countP isPlaced + (localHolds s).length ≤ s.tp.taken := by
      rw [length_localHolds]; exact hk
    have hlen : s.tp.notices.length + s.tp.taken ≤ 16 := hl
    simp only [faultNotices, faultPlaces, List.length_append, List.length_map]
    omega
  · rw [← length_localHolds, localHolds_freeEntries s hr]
    exact Nat.zero_le _

theorem port_faultSlot (n : Nat) : port (faultSlot s n) = port s := by
  unfold faultSlot
  (repeat' split) <;> rfl

theorem port_faultTp : port (faultTp s) = port s := by
  have hs : port (setEvent .store { s with tp := { s.tp with station := .halted } }) = port s := port_setEvent _ (by decide)
  simp only [faultTp]
  split
  · exact hs
  · exact hs

/-- The store fault: the FAULT notices of holds and records enter, then waiting notices enter the free places (R62, R85). -/
theorem portStep_storeFaulted : PortStep (port s) (port (storeFaulted s)) := by
  have hp : port (storeFaulted s) = port (enterWaiting (dropGranted (holdsEnded s))) := by
    show port (faultTp (faultTu (faultDq (faultSlots (holdsEnded s))))) = _
    rw [port_faultTp, port_faultTu, port_faultDq, faultSlots, port_withdraw, port_foldl _ port_faultSlot]
  rw [hp]
  exact (portStep_holdsEnded s).trans (portStep_enterDues (dropGranted (holdsEnded s)) (Nat.le_refl _))

end Fault

/-! ### Restarts and the clock (R128, R132, R138, R174, R175, R184) -/

section Restart
variable (s : State)

theorem portStep_startUpSteps (p : Port) (c : Cause) : PortStep p (port (startUpSteps c s)) := .emptied rfl rfl rfl rfl

theorem portStep_stopped (p : Port) : PortStep p (port (stopped s)) := .emptied rfl rfl rfl rfl

/-- A RESET taken with a write under way leaves its record without dependents (R122, R132). -/
theorem portStep_beginReset : PortStep (port s) (port (beginReset s)) := by
  simp only [beginReset]
  split
  · exact portStep_startUpSteps _ _ _
  · exact PortStep.cleared (p := port s) (port s).shown id

theorem portStep_reloaded : PortStep (port s) (port (reloaded s)) := by
  refine PortStep.cleared (p := port s) (isPending (reloaded s) .notice) fun h => ?_
  have hs : s.tp.events.getLsbD 0 = true := (isPending_notice s).symm.trans h
  rw [isPending_notice]
  show (if _ then s.tp.events else s.tp.events ||| eventBit .store).getLsbD 0 = true
  split
  · exact hs
  · rw [BitVec.getLsbD_or, hs, Bool.true_or]

theorem portStep_tick : PortStep (port s) (port (tick s)) := by
  have ht : Table.total Port.keptBy (tickHolds s.ctu.holds) = Table.total Port.keptBy s.ctu.holds := by
    have hk : ∀ e, Port.keptBy (tickedHold e) = Port.keptBy e := fun e => by
      unfold Port.keptBy tickedHold
      cases e.live <;> rfl
    simp [Table.total, tickHolds_eq, List.map_map, Function.comp_def, hk]
  refine ⟨id, fun ⟨hr, hl, hk⟩ => ⟨?_, hl, ?_⟩⟩
  · exact (Table.rises_map tickedHold s.ctu.holds).trans hr
  · show (port s).placed + Table.total Port.keptBy (tickHolds s.ctu.holds) + 0 ≤ _
    rw [ht]
    exact hk

theorem portStep_clock : PortStep (port s) (port (clock s)) := by
  unfold clock
  split
  · exact .refl _
  · exact portStep_tick { s with tp := { s.tp with refCount := 0 } }

end Restart
end Sys2Proof.Machine

/-! ## Every step keeps NOTICE and the places (R59, R178, R180) -/
namespace Sys2Proof.Machine
open Safety

/-- What holds of a command: it answers a next state, and keeps the laws of NOTICE and of the places. -/
def KeepsPort (s : State) (o : Host.Outcome State Fault Refusal) : Prop :=
  nextSatisfies o fun t => PortStep (port s) (port t)

section Exec
variable {s : State}

theorem keepsPort_next {t : State} (h : PortStep (port s) (port t)) : KeepsPort s (.next t) := nextSatisfies_next.2 h

@[simp] theorem keepsPort_same {t : State} (h : port t = port s) : KeepsPort s (.next t) := keepsPort_next (.of_eq h)

theorem keepsPort_ite {c : Prop} [Decidable c] {t u : State} (h : c → PortStep (port s) (port t))
    (h' : ¬ c → PortStep (port s) (port u)) : KeepsPort s (if c then .next t else .next u) := by
  split
  · next hc => exact keepsPort_next (h hc)
  · next hc => exact keepsPort_next (h' hc)

/-- A command write: its work is done on the state with the command taken (R168). -/
theorem keepsPort_intake (code seq : Byte) {work : State → State} (hw : ∀ t, PortStep (port t) (port (work t))) :
    KeepsPort s (intake code seq work s) := by
  unfold intake
  split
  · exact keepsPort_same rfl
  · split
    · exact keepsPort_same rfl
    · exact keepsPort_next (hw (takeCommand code seq s))

theorem portStep_tested {test : State → Option Reason} {work : State → State} (hw : ∀ t, port (work t) = port t)
    (t : State) : PortStep (port t) (port (tested test work t)) := by
  unfold tested
  split
  · exact .refl _
  · exact .of_eq (hw t)

theorem keepsPort_completeFrame (src dst : Station) (b : Option Body) : KeepsPort s (completeFrame src dst b s) := by
  unfold completeFrame
  (repeat' split) <;> exact keepsPort_same (by simp)

/-! ### The Card Table Unit -/

theorem keepsPort_homeOperationTake : KeepsPort s (execHomeOperationTake s) := by
  unfold execHomeOperationTake
  split
  · exact keepsPort_ite (fun _ => portStep_takeHomeOp (popLocal s) _) fun _ => .refl _
  · exact keepsPort_same rfl

theorem keepsPort_localRequestTake : KeepsPort s (execLocalRequestTake s) := by
  unfold execLocalRequestTake
  split
  · exact keepsPort_ite (fun _ => portStep_takeLocal (popLocal s) _) fun _ => .refl _
  · exact keepsPort_same rfl

theorem keepsPort_hold : KeepsPort s (execHold s) := by
  unfold execHold
  split
  · exact keepsPort_ite (fun _ => portStep_decideHold (popLine s) ..) fun _ => .refl _
  · exact keepsPort_same rfl

theorem keepsPort_claim : KeepsPort s (execClaim s) := by
  unfold execClaim
  split
  · refine keepsPort_ite (fun _ => PortStep.trans (.of_eq ?_) (portStep_decideClaim _ ..)) fun _ => .refl _
    split <;> simp
  · exact keepsPort_same rfl

theorem keepsPort_drop : KeepsPort s (execDrop s) := by
  unfold execDrop
  split
  · exact keepsPort_ite (fun _ => portStep_decideDrop (popLine s) ..) fun _ => .refl _
  · exact keepsPort_same rfl

theorem keepsPort_holdExpiry (i : Fin 256) : KeepsPort s (execHoldExpiry i s) := by
  unfold execHoldExpiry
  split
  · next h hl =>
    split
    · exact keepsPort_ite (fun _ => PortStep.free _ _) fun hp => portStep_secondNotice s _ _ fun _ => keptBy_live hl hp
    · exact keepsPort_same rfl
  · exact keepsPort_same rfl

/-! ### The completion queue, the Deferred Queue and the Posting Store -/

theorem keepsPort_noticeEntry : KeepsPort s (execNoticeEntry s) := by
  unfold execNoticeEntry
  split
  · next d ds hd =>
    refine keepsPort_ite (fun hf => ?_) fun _ => .refl _
    rw [port_settleWaiting, port_enterDue]
    exact .enter _ (room_of_freePlaces hf.1 Nat.one_pos)
  · exact keepsPort_same rfl

theorem keepsPort_dqReturnTake : KeepsPort s (execDqReturnTake s) := by
  unfold execDqReturnTake
  split
  · exact keepsPort_ite (fun _ => portStep_takeRefund (leaveWaiting .dqReturn s) ..) fun _ => .refl _
  · exact keepsPort_same rfl

theorem keepsPort_writeCompletion : KeepsPort s (execWriteCompletion s) := by
  unfold execWriteCompletion
  split
  · next r rest hq =>
    split
    · refine keepsPort_ite (fun _ => portStep_startUpSteps ..) fun _ => ?_
      rw [port_tryConfigure]
      exact portStep_commit s hq
    · exact keepsPort_same rfl
  · exact keepsPort_same rfl

theorem keepsPort_storeFault : KeepsPort s (execStoreFault s) := by
  unfold execStoreFault
  split
  · split
    · exact keepsPort_ite (fun _ => portStep_startUpSteps ..) fun _ => portStep_storeFaulted s
    · exact keepsPort_same rfl
  · exact keepsPort_same rfl

theorem keepsPort_bodyClash : KeepsPort s (execBodyClash s) := by
  unfold execBodyClash
  split
  · exact keepsPort_ite (fun _ => .of_eq (port_lineFails ..)) fun _ => .of_eq rfl
  · exact keepsPort_same rfl

theorem keepsPort_powerUp : KeepsPort s (execPowerUp s) := by
  unfold execPowerUp
  split
  · exact keepsPort_same rfl
  · exact keepsPort_ite (fun _ => .of_eq rfl) fun _ => portStep_startUpSteps ..

theorem keepsPort_resetInputRelease : KeepsPort s (execResetInputRelease s) := by
  unfold execResetInputRelease
  split
  · exact keepsPort_ite (fun _ => portStep_startUpSteps ..) fun _ => .of_eq rfl
  · exact keepsPort_same rfl

/-! ### Every command -/

/-- Every command keeps the laws of NOTICE and of the places: most leave the port view as it is. -/
theorem exec_keepsPort (c : Instr) (s : State) : KeepsPort s (exec c s) := by
  cases c with
  | configure => exact keepsPort_intake _ _ (portStep_tested fun _ => port_takeConfigure ..)
  | join => exact keepsPort_intake _ _ (portStep_tested fun _ => port_joined ..)
  | sell => exact keepsPort_intake _ _ (portStep_tested fun _ => port_handTo ..)
  | close | freeze | unfreeze => exact keepsPort_intake _ _ (portStep_tested fun _ => port_routeHomeOp ..)
  | load | redeem | returnCard | inquire => exact keepsPort_intake _ _ (portStep_tested fun _ => port_routeCard ..)
  | confirm => exact keepsPort_intake _ _ (portStep_tested fun _ => port_routeConfirm ..)
  | cancel => exact keepsPort_intake _ _ (portStep_tested fun _ => port_routeCancel ..)
  | settle => exact keepsPort_intake _ _ (portStep_tested fun _ => port_takeSettle ..)
  | recount => exact keepsPort_intake _ _ (portStep_tested fun _ => port_takeRecount ..)
  | takeNotice => exact keepsPort_intake _ _ portStep_takeNotice
  | clearEvents => exact keepsPort_intake _ _ fun t => portStep_keepNotice t _ rfl rfl
  | setMask => exact keepsPort_intake _ _ fun t => portStep_keepNotice t _ rfl rfl
  | status | readEvents => exact keepsPort_intake _ _ fun t => .of_eq (port_accept t ..)
  | readCard | readCaplog | readDeferred | readPayout =>
    simp only [exec_readCard, exec_readCaplog, exec_readDeferred, exec_readPayout]
    refine keepsPort_intake _ _ fun t => .of_eq ?_
    (repeat' split) <;> rfl
  | reset => exact keepsPort_ite (fun _ => portStep_beginReset s) fun _ => .refl _
  | malformed => exact keepsPort_ite (fun _ => .of_eq rfl) fun _ => .refl _
  | powerUp => exact keepsPort_powerUp
  | powerFailure => exact keepsPort_ite (fun _ => portStep_stopped ..) fun _ => .refl _
  | resetInputAssert => exact keepsPort_ite (fun _ => .refl _) fun _ => portStep_stopped ..
  | resetInputRelease => exact keepsPort_resetInputRelease
  | reload => exact keepsPort_ite (fun _ => portStep_reloaded s) fun _ => .refl _
  | homeOperationTake => exact keepsPort_homeOperationTake
  | localRequestTake => exact keepsPort_localRequestTake
  | hold => exact keepsPort_hold
  | claim => exact keepsPort_claim
  | drop => exact keepsPort_drop
  | holdExpiry i => exact keepsPort_holdExpiry i
  | noticeEntry => exact keepsPort_noticeEntry
  | dqReturnTake => exact keepsPort_dqReturnTake
  | storeFault => exact keepsPort_storeFault
  | writeCompletion => exact keepsPort_writeCompletion
  | stall | holdOk | holdNo | claimOk | claimNo | postOk | postNo | loadOk | loadNo | returnOk | returnNo | balance
  | inquireNo | tallyOpen | tally | receiveQueueEntry => exact keepsPort_completeFrame ..
  | post | loadFrame | returnFrame | inquireFrame =>
    simp only [exec, execPost, execLoadFrame, execReturnFrame, execInquireFrame]
    (repeat' split) <;> simp
  | slotOpening | replyWindowExpiry | slotHoldExpiry | offlineDecision | slotDeferredEntry | actorFiling =>
    simp only [exec, execSlotOpening, execReplyWindowExpiry, execSlotHoldExpiry, execOfflineDecision,
      execSlotDeferredEntry, execActorFiling]
    (repeat' split) <;> simp
  | dqWindowExpiry | forwarderChoice | dqPendingStep | stuckTimerExpiry =>
    simp only [exec, execDqWindowExpiry, execForwarderChoice, execDqPendingStep, execStuckTimerExpiry]
    (repeat' split) <;> simp
  | bodyClash => exact keepsPort_bodyClash
  | roundOpening | tallyStep | receptionStep | cutShortStep | payoutRecord =>
    simp only [exec, execRoundOpening, execTallyStep, execReceptionStep, execCutShortStep, execPayoutRecord]
    (repeat' split) <;> simp
  | bodyLengthDiscard | frameStart | arbitrationLost | frameSentWhole | idleGap | startSymbol =>
    simp only [exec, execBodyLengthDiscard, execFrameStart, execArbitrationLost, execFrameSentWhole, execIdleGap,
      execStartSymbol]
    (repeat' split) <;> exact keepsPort_same rfl
  | backoffExpiry | quietTimerExpiry | tallyTimerExpiry | computationCompletion | tallyOpenEntry =>
    simp only [exec, execBackoffExpiry, execQuietTimerExpiry, execTallyTimerExpiry, execComputationCompletion,
      execTallyOpenEntry]
    (repeat' split) <;> exact keepsPort_same rfl

theorem portStep_of_exec {c : Instr} {t : State} (h : exec c s = .next t) : PortStep (port s) (port t) := by
  obtain ⟨u, hu, hk⟩ := exec_keepsPort c s
  cases h.symm.trans hu
  exact hk

end Exec

theorem portStep_of_step {s t : State} (h : step s = .next t) : PortStep (port s) (port t) := by
  unfold step at h
  split at h
  · have hk := portStep_of_exec h
    exact hk
  · unfold idle at h
    split at h
    · split at h
      · cases h; exact portStep_clock s
      · cases h; exact .refl _
    · exact portStep_of_exec h
    · have hk := portStep_of_exec h
      exact hk

/-- Settles O8: what every command keeps of the port view, a period of the clock included. -/
theorem stepKeepsNoticePending : Obligations.StepKeepsNoticePending :=
  ⟨fun s t hs h => (noticeLaw_iff t).2 ((portStep_of_step h).shows ((noticeLaw_iff s).1 hs)),
    fun s t hs h => (placeLaw_iff t).2 ((portStep_of_step h).places ((placeLaw_iff s).1 hs))⟩

end Sys2Proof.Machine

/-! ## Answers taken by a slot (R70 to R82) -/
namespace Sys2Proof.Machine
open Safety

section Taken
variable {s : State} {src dst : Station} {b : Body} {n : Nat} {sl : Slot}

/-- The slot that takes an answer is of a kind and in a state that take it, and no step of it is pending (R70, R71, R81). -/
theorem slotTaking_takes (h : slotTaking s src b = some (n, sl)) : takesKind sl b = true ∧ sl.pending = none := by
  have hf := List.find?_some h
  simp only [Bool.and_eq_true, Option.isNone_iff_eq_none] at hf
  exact ⟨hf.1.2, hf.2⟩

/-- What a slot can take is offered as an answer (R120, R121). -/
theorem deliver_of_takesKind (h : takesKind sl b = true) (u : State) : deliver src b u = offerAnswer src b u := by
  cases b <;> first | rfl | cases h

/-- An answer heard goes to the slot that takes it (R117 to R120). -/
theorem heard_by_slot (hh : hears s src dst b) (ht : slotTaking s src b = some (n, sl)) :
    completeFields src dst b s = .next (settleWaiting (trySlot n (slotAnswer n sl b (frameEnded s)))) := by
  rw [completeFields_of_hears hh, deliver_of_takesKind (slotTaking_takes ht).1,
    offerAnswer_of_slot (s := frameEnded s) ht]

/-- Nothing is made for a slot that has no pending step. -/
theorem trySlot_of_slotAt {u : State} {x : Slot} (hx : slotAt u n = some x) (hp : x.pending = none) :
    trySlot n u = settleWaiting u :=
  trySlot_of_none (by rw [pendingOf, hx]; exact hp)

/-- An answer heard that leaves its slot without a pending step is no cause of a step. -/
theorem heard_without_step {x : Slot} (hh : hears s src dst b) (ht : slotTaking s src b = some (n, sl))
    (hx : slotAt (slotAnswer n sl b (frameEnded s)) n = some x) (hp : x.pending = none) :
    completeFields src dst b s = .next (settleWaiting (settleWaiting (slotAnswer n sl b (frameEnded s)))) := by
  rw [heard_by_slot hh ht, trySlot_of_slotAt hx hp]

/-- A filing answer heard: its record is made where a free place goes to it, else it waits (R81, R82). -/
theorem filing_heard {pos : FilePos} {amount : Nat} {day : Option Day} {m : Notice} (hh : hears s src dst b)
    (ht : slotTaking s src b = some (n, sl))
    (ha : slotAnswer n sl b (frameEnded s) = fileStep n sl pos amount day m (frameEnded s)) :
    nextSatisfies (completeFields src dst b s) fun t =>
      filingOnly s t n sl ∧ filingOutcome s t n sl pos amount day m := by
  refine ⟨_, heard_by_slot hh ht, ?_⟩
  rw [ha]
  exact (filing_of_fileStep n sl pos amount day m s).symm

/-- An answer heard that ends its slot: the terminal notice falls due (R71, R84). -/
theorem ended_heard {m : Notice} (hh : hears s src dst b) (ht : slotTaking s src b = some (n, sl))
    (ha : slotAnswer n sl b (frameEnded s) = endSlot n sl m (frameEnded s)) :
    nextSatisfies (completeFields src dst b s) fun t => endedSlot s t n sl m := by
  refine ⟨_, heard_by_slot hh ht, ?_⟩
  rw [ha]
  exact ended_of_trySlot (frameEnded s) n sl m

end Taken

/-! ### REDEEM slots (R70 to R72, R75, R76) -/

section Redeem
variable {s : State} {src dst : Station} {tag : Tag} {n : Nat} {sl : Slot}

theorem holdOk_taken {id : HoldId} {grant avail : Amount} {p : Bool} (hh : hears s src dst (.holdOk tag id grant avail p))
    (ht : slotTaking s src (.holdOk tag id grant avail p) = some (n, sl)) :
    nextSatisfies (exec (.holdOk src dst tag id grant avail p) s) fun t =>
      oneSlot s t n (some { sl with
        state := .held, hold := some (id, grant.toNat), reply := none
        holdTimer := some (s.tp.config.holdLife * 1000 - s.tp.config.window) }) ∧ noRecord s t ∧
      t = { s with lc := countingLc s, ps := t.ps, su := { s.su with slots := t.su.slots, due := s.su.due ++
        [⟨{ plainNotice sl.tag sl.card .granted with
          amountA := grant.toNat, amountB := avail.toNat, isPartial := p }, some n, false⟩] } } := by
  have hp := (slotTaking_takes ht).2
  exact ⟨_, heard_without_step hh ht (slotAt_putSlot_self n _ (frameEnded s)) hp, oneSlot_of_put rfl, rfl, rfl⟩

theorem holdNo_taken {r : Reason} {avail : Amount} (hh : hears s src dst (.holdNo tag r avail))
    (ht : slotTaking s src (.holdNo tag r avail) = some (n, sl)) :
    nextSatisfies (exec (.holdNo src dst tag r avail) s) fun t =>
      (r ≠ .degraded ∨ sl.offline = false → oneSlot s t n (some (notifying sl)) ∧ noRecord s t ∧
        t = { s with lc := countingLc s, ps := t.ps, su := { s.su with slots := t.su.slots, due := s.su.due ++
          [⟨{ plainNotice sl.tag sl.card .refused with
            reason := r, amountA := if r = .funds then avail.toNat else 0 }, some n, true⟩] } }) ∧
      (r = .degraded → sl.offline = true → offlineOutcome s t (countingLc s) n sl) := by
  by_cases hr : r = .degraded ∧ sl.offline = true
  · obtain ⟨rfl, ho⟩ := hr
    refine ⟨_, heard_by_slot hh ht, fun hc => ?_, fun _ _ => ?_⟩
    · exact absurd hc (by simp [ho])
    · simp only [slotAnswer, if_true, redeemUnanswered, ho]
      exact offline_of_waitStep s (countingLc s) n sl
  · have ha : slotAnswer n sl (.holdNo tag r avail) (frameEnded s) = endSlot n sl { plainNotice sl.tag sl.card .refused with
        reason := r, amountA := if r = .funds then avail.toNat else 0 } (frameEnded s) := by
      by_cases hd : r = .degraded
      · have ho : sl.offline = false := by simpa [hd] using hr
        simp [slotAnswer, hd, redeemUnanswered, ho, slotNotice, plainNotice]
      · by_cases hf : r = .funds
        · simp [slotAnswer, hf, slotNotice, plainNotice]
        · simp [slotAnswer, hf, hd, slotNotice, plainNotice]
    obtain ⟨t, he, h⟩ := ended_heard hh ht ha
    exact ⟨t, he, fun _ => h, fun h1 h2 => absurd ⟨h1, h2⟩ hr⟩

/-- A DROP for a slot's hold enters class 2 when it has a free place (R75). -/
theorem sendDrop_frame (sl : Slot) (u : State) : sendDrop sl u = { u with lc := { u.lc with
    tx2 := { u.lc.tx2 with frames := u.lc.tx2.frames ++
      (match sl.hold with
       | some h => if 1 ≤ txFree u .c2 then [⟨cardHome sl.card, .drop sl.tag h.1, 0, 0⟩] else []
       | none => []) } } } := by
  cases hh : sl.hold with
  | none => simp only [sendDrop, hh, List.append_nil]
  | some h => exact sendDrop_eq hh u

/-- CLAIM-NO of LATE or UNKNOWN defers the capture, of DEGRADED the claim, another reason ends the slot (R76). -/
theorem claimNo_taken {r : Reason} (hh : hears s src dst (.claimNo tag r))
    (ht : slotTaking s src (.claimNo tag r) = some (n, sl)) :
    nextSatisfies (exec (.claimNo src dst tag r) s) fun t =>
      (r ≠ .late → r ≠ .unknown → r ≠ .degraded → oneSlot s t n (some (notifying sl)) ∧ noRecord s t ∧
        t = { s with
          ps := t.ps
          su := { s.su with slots := t.su.slots, due := s.su.due ++
            [⟨{ plainNotice sl.tag sl.card .refused with reason := r }, some n, true⟩] }
          lc := { countingLc s with tx2 := { s.lc.tx2 with frames := s.lc.tx2.frames ++
            (match sl.hold with
             | some h => if 1 ≤ txFree s .c2 then [⟨cardHome sl.card, .drop sl.tag h.1, 0, 0⟩] else []
             | none => []) } } }) ∧
      (r = .late ∨ r = .unknown → entryOutcome s t (countingLc s) n sl .deferLate
        ⟨.post, .late, sl.card, sl.check, sl.amount, sl.tag, none, liveDay s, false, 0⟩) ∧
      (r = .degraded → entryOutcome s t (countingLc s) n sl .deferRetry
        ⟨.claimRetry, .none, sl.card, sl.check, sl.amount, sl.tag, sl.hold.map (·.1), liveDay s, false, 0⟩) := by
  refine ⟨_, heard_by_slot hh ht, fun h1 h2 h3 => ?_, ?_, ?_⟩
  · have ha : slotAnswer n sl (.claimNo tag r) (frameEnded s) =
        endSlot n sl { plainNotice sl.tag sl.card .refused with reason := r } (sendDrop sl (frameEnded s)) := by
      cases r <;> first | rfl | contradiction
    rw [ha, sendDrop_frame, trySlot_of_none (pendingOf_endSlot ..)]
    exact ⟨oneSlot_of_put rfl, rfl, rfl⟩
  · rintro (rfl | rfl) <;> exact entry_of_waitStep s (countingLc s) n sl .deferLate _ (.inl ⟨rfl, rfl⟩)
  · rintro rfl
    exact entry_of_waitStep s (countingLc s) n sl .deferRetry _ (.inr ⟨rfl, rfl⟩)

end Redeem

/-! ### STALL (R70, R94) -/

/-- A STALL restarts a window within the wait mode's count (R70). -/
theorem stalled_eq {c : ConfigRecord} (h : c.waitMode ≤ 2) (reply : Option Nat) (stalls : Nat) :
    stalled c reply stalls = if (c.waitMode = 1 ∧ stalls < 4) ∨ (c.waitMode = 2 ∧ stalls = 0) then
      (some c.window, stalls + 1) else (reply, stalls) := by
  have hl : stalls < stallLimit c.waitMode ↔ (c.waitMode = 1 ∧ stalls < 4) ∨ (c.waitMode = 2 ∧ stalls = 0) := by
    unfold stallLimit
    split_ifs <;> omega
  simp only [stalled, hl]

theorem stall_taken {s : State} {src dst : Station} {tag : Tag} {n : Nat} {sl : Slot} (hh : hears s src dst (.stall tag))
    (ht : slotTaking s src (.stall tag) = some (n, sl)) (hw : s.tp.config.waitMode ≤ 2) :
    nextSatisfies (exec (.stall src dst tag) s) fun t =>
      oneSlot s t n (some
        (if (s.tp.config.waitMode = 1 ∧ sl.stalls < 4) ∨ (s.tp.config.waitMode = 2 ∧ sl.stalls = 0) then
          { sl with reply := some s.tp.config.window, stalls := sl.stalls + 1 }
        else sl)) ∧ noRecord s t ∧
      t = { s with lc := countingLc s, ps := t.ps, su := { s.su with slots := t.su.slots } } := by
  have hp := (slotTaking_takes ht).2
  refine ⟨_, heard_without_step hh ht (slotAt_putSlot_self n _ (frameEnded s)) hp, ?_, rfl, rfl⟩
  have he := stalled_eq hw sl.reply sl.stalls
  refine oneSlot_of_put ?_
  show Table.put s.su.slots n { sl with
    reply := (stalled s.tp.config sl.reply sl.stalls).1, stalls := (stalled s.tp.config sl.reply sl.stalls).2 } = _
  rw [he]
  split_ifs <;> rfl

/-- Settles O53: each answer is heard by the slot that takes it. -/
theorem redeemAnswers : Obligations.RedeemAnswers := fun _ _ _ _ _ _ _ _ _ _ _ _ _ _ =>
  ⟨holdOk_taken, holdNo_taken, fun hh ht => filing_heard hh ht rfl, claimNo_taken, stall_taken⟩

/-! ### LOAD, RETURN and INQUIRE slots (R78 to R80) -/

section Other
variable {s : State} {src dst : Station} {tag : Tag} {n : Nat} {sl : Slot}

/-- BALANCE: the LOAD found is filed; a LOAD not found, and an INQUIRE, end (R78, R80). -/
theorem balance_taken {bal avail : Amount} {c : CardState} {q : TagResult} (hh : hears s src dst (.balance tag c bal avail q))
    (ht : slotTaking s src (.balance tag c bal avail q) = some (n, sl)) :
    nextSatisfies (exec (.balance src dst tag c bal avail q) s) fun t =>
      (sl.kind = .load ∧ q = .foundLoad → filingOnly s t n sl ∧ filingOutcome s t n sl .load sl.amount none
        { plainNotice sl.tag sl.card .loaded with amountA := sl.amount, amountB := bal.toNat }) ∧
      (sl.kind = .load ∧ q ≠ .foundLoad →
        endedSlot s t n sl { plainNotice sl.tag sl.card .notLoaded with amountA := sl.amount }) ∧
      (sl.kind ≠ .load → endedSlot s t n sl { plainNotice sl.tag sl.card .balance with
        cardState := c, amountA := bal.toNat, amountB := avail.toNat, result := q }) := by
  by_cases hk : sl.kind = .load
  · by_cases hq : q = .foundLoad
    · subst hq
      obtain ⟨t, he, h⟩ := filing_heard (pos := .load) (amount := sl.amount) (day := none)
        (m := { plainNotice sl.tag sl.card .loaded with amountA := sl.amount, amountB := bal.toNat }) hh ht
        (by simp only [slotAnswer, slotBalance, hk]; rfl)
      exact ⟨t, he, fun _ => h, fun hc => absurd rfl hc.2, fun hc => absurd hk hc⟩
    · obtain ⟨t, he, h⟩ := ended_heard (m := { plainNotice sl.tag sl.card .notLoaded with amountA := sl.amount }) hh ht
        (by cases q <;> simp only [slotAnswer, slotBalance, hk] <;> first | rfl | contradiction)
      exact ⟨t, he, fun hc => absurd hc.2 hq, fun _ => h, fun hc => absurd hk hc⟩
  · obtain ⟨t, he, h⟩ := ended_heard (m := { plainNotice sl.tag sl.card .balance with
        cardState := c, amountA := bal.toNat, amountB := avail.toNat, result := q }) hh ht
      (by simp only [slotAnswer, slotBalance]; cases hs : sl.kind <;> first | rfl | contradiction)
    exact ⟨t, he, fun hc => absurd hc.1 hk, fun hc => absurd hc.1 hk, fun _ => h⟩

/-- INQUIRE-NO leaves a LOAD in doubt and refuses an INQUIRE (R78, R80). -/
theorem inquireNo_taken {r : Reason} (hh : hears s src dst (.inquireNo tag r))
    (ht : slotTaking s src (.inquireNo tag r) = some (n, sl)) :
    nextSatisfies (exec (.inquireNo src dst tag r) s) fun t => endedSlot s t n sl
      (if sl.kind = .load then { plainNotice sl.tag sl.card .inDoubt with amountA := sl.amount }
        else { plainNotice sl.tag sl.card .refused with reason := r }) := by
  refine ended_heard hh ht ?_
  simp only [slotAnswer]
  split <;> rfl

end Other

/-- Settles O54: each answer is heard by the slot that takes it. -/
theorem otherAnswers : Obligations.OtherAnswers := by
  intro s src dst tag bal avail dup r c q day n sl
  refine ⟨fun hh ht => filing_heard hh ht rfl, fun hh ht => filing_heard hh ht rfl, balance_taken, ?_, inquireNo_taken⟩
  intro x hx
  simp only [List.mem_cons, List.not_mem_nil, or_false] at hx
  obtain rfl | rfl := hx
  · exact fun hh ht => ended_heard hh ht rfl
  · exact fun hh ht => ended_heard hh ht rfl

end Sys2Proof.Machine

/-! ## Answers taken by the Deferred Queue (R82, R89 to R99) -/
namespace Sys2Proof.Machine
open Safety

section Taken
variable {s : State} {src dst : Station} {b : Body} {e : DeferredEntry}

/-- The Deferred Queue takes answers for its SENT entry, of the entry's kind (R94, R95). -/
theorem dqTaking_takes (h : dqTaking s src b = some e) :
    sentEntry s = some e ∧ cardHome e.card = src ∧ answersEntry e b = true := by
  unfold dqTaking at h
  split at h
  · obtain ⟨hs, hc⟩ := Option.filter_eq_some_iff.1 h
    simp only [Bool.and_eq_true, beq_iff_eq] at hc
    exact ⟨hs, hc.1.1, hc.2⟩
  · cases h

/-- What the SENT entry can take is offered as an answer (R120, R121). -/
theorem deliver_of_answersEntry (h : answersEntry e b = true) (u : State) : deliver src b u = offerAnswer src b u := by
  cases b <;> first | rfl | cases h

/-- An answer heard that no slot takes goes to the SENT entry that takes it (R117 to R120). -/
theorem heard_by_entry (hh : hears s src dst b) (hn : slotTaking s src b = none) (ht : dqTaking s src b = some e) :
    completeFields src dst b s = .next (settleWaiting (dqAnswer e b (frameEnded s))) := by
  obtain ⟨-, -, ha⟩ := dqTaking_takes ht
  rw [completeFields_of_hears hh, deliver_of_answersEntry ha, offerAnswer_of_entry (s := frameEnded s) hn ht]

/-- What the change of the SENT entry leaves as it was (R95). -/
theorem dqOutcome_frame {t : State} {lc : Lc} {step : DqStep} {a : DeferredArea} {f : State × List AreaUpdate}
    {ds : List Dependent} (h : dqOutcome s t lc step a f ds) : t.ctu = s.ctu ∧ t.su = s.su ∧ t.lc = lc := by
  unfold dqOutcome at h
  split at h
  all_goals
    obtain ⟨-, -, ht⟩ := h
    rw [ht]
    exact ⟨rfl, rfl, rfl⟩

/-- A change that files nothing leaves the Tally Unit and the Till Port as they were. -/
theorem dqOutcome_unfiled {t : State} {lc : Lc} {step : DqStep} {a : DeferredArea} {us : List AreaUpdate}
    {ds : List Dependent} (h : dqOutcome s t lc step a (s, us) ds) : t.tu = s.tu ∧ t.tp = s.tp := by
  unfold dqOutcome at h
  split at h
  all_goals
    obtain ⟨-, -, ht⟩ := h
    rw [ht]
    exact ⟨rfl, rfl⟩

section Decided
variable {step : DqStep} {bo : BackoffLine} (hr : Table.rises s.dq.backoff = true) (hh : hears s src dst b)
  (hn : slotTaking s src b = none) (ht : dqTaking s src b = some e)
  (ha : dqAnswer e b (frameEnded s) = dqDecide step (putBackoff (cardHome e.card) bo (frameEnded s)))
include hr hh hn ht ha

/-- An answer heard that decides the change of the SENT entry: its home's back-off is written, and the change is made where a
free place goes to it, else it waits (R91, R95 to R99). -/
theorem decided_heard :
    nextSatisfies (completeFields src dst b s) fun t => oneBackoff s t (cardHome e.card) bo ∧ dqOnly s t ∧
      dqOutcome s t (countingLc s) step (stepEffect s e step).1 (stepEffect s e step).2.1 (stepEffect s e step).2.2 := by
  obtain ⟨hs, -, -⟩ := dqTaking_takes ht
  refine ⟨_, heard_by_entry hh hn ht, ?_⟩
  rw [ha]
  obtain ⟨hb, ho⟩ := dqDecide_putBackoff s e (countingLc s) (cardHome e.card) bo step hr hs
  exact ⟨hb, dqOutcome_frame ho, ho⟩

/-- A change decided that files nothing. -/
theorem decided_unfiled {a : DeferredArea} (he : stepEffect s e step = (a, (s, []), [])) :
    nextSatisfies (completeFields src dst b s) fun t => oneBackoff s t (cardHome e.card) bo ∧ dqOnly s t ∧ t.tu = s.tu ∧
      t.tp = s.tp ∧ dqOutcome s t (countingLc s) step a (s, []) [] := by
  obtain ⟨t, hx, hb, hd, ho⟩ := decided_heard hr hh hn ht ha
  rw [he] at ho
  obtain ⟨htu, htp⟩ := dqOutcome_unfiled ho
  exact ⟨t, hx, hb, hd, htu, htp, ho⟩

end Decided

/-- The area less its SENT entry, as R89 gives its exposure. -/
theorem removeSent_eq (a : DeferredArea) (e : DeferredEntry) : removeSent a e = ⟨a.entries.filter fun x => !x.sent,
    if e.origin = .offline then a.exposure - e.amount else a.exposure⟩ := by
  unfold removeSent
  split <;> rfl

/-- A STALL restarts the SENT entry's window within the wait mode's count (R94). -/
theorem stall_by_entry {tag : Tag} (hh : hears s src dst (.stall tag)) (hn : slotTaking s src (.stall tag) = none)
    (ht : dqTaking s src (.stall tag) = some e) (hw : s.tp.config.waitMode ≤ 2) :
    nextSatisfies (exec (.stall src dst tag) s) fun t => noRecord s t ∧
      t = { s with
        lc := countingLc s, ps := t.ps
        dq := if (s.tp.config.waitMode = 1 ∧ s.dq.stalls < 4) ∨ (s.tp.config.waitMode = 2 ∧ s.dq.stalls = 0) then
            { s.dq with reply := some s.tp.config.window, stalls := s.dq.stalls + 1 }
          else s.dq } := by
  have he := stalled_eq hw s.dq.reply s.dq.stalls
  refine ⟨_, heard_by_entry hh hn ht, rfl, State.ext rfl rfl rfl ?_ rfl rfl rfl rfl rfl⟩
  show ({ s.dq with
    reply := (stalled s.tp.config s.dq.reply s.dq.stalls).1
    stalls := (stalled s.tp.config s.dq.reply s.dq.stalls).2 } : Dq) = _
  rw [he]
  split_ifs <;> rfl

end Taken

/-- Settles O55: each answer is heard by the SENT entry, and decides its change or restarts its window. -/
theorem deferredAnswers : Obligations.DeferredAnswers := by
  intro s src dst tag amount short dup r day e gone _ hr hg
  have hgone : gone = removeSent s.dq.area e := hg.trans (removeSent_eq _ _).symm
  subst hgone
  refine ⟨fun hh hn ht => ?_, fun hh hn ht => decided_heard hr hh hn ht rfl, ?_, fun hh hn ht hd => ?_, stall_by_entry⟩
  · obtain ⟨t, hx, hb, hd, ho⟩ := decided_heard hr hh hn ht rfl
    refine ⟨t, hx, hb, hd, ?_⟩
    by_cases h0 : 0 < short.toNat
    · rw [if_pos h0] at ho ⊢
      rw [if_pos h0]
      exact ho
    · rw [if_neg h0] at ho ⊢
      rw [if_neg h0]
      exact ho
  · intro x hx
    simp only [List.mem_cons, List.not_mem_nil, or_false] at hx
    obtain rfl | rfl := hx
    · exact fun hh hn ht => decided_unfiled hr hh hn ht rfl rfl
    · exact fun hh hn ht => decided_unfiled hr hh hn ht rfl rfl
  · refine decided_unfiled hr hh hn ht ?_ rfl
    exact if_neg hd

end Sys2Proof.Machine

/-! ## The opening of a slot (R65, R68, R72) -/
namespace Sys2Proof.Machine
open Safety

section Opening
variable {s : State} {r : OpenReq} {n : Nat}

/-- An opening command granted its write-queue place is taken (R68, R126). -/
theorem slotOpening_granted (hg : granted s = some .opening) (hh : s.tp.hand = some (.opening r)) :
    exec .slotOpening s = .next (settleWaiting (takeOpening r (leaveWaiting .opening s))) := by
  show execSlotOpening s = _
  simp only [execSlotOpening, hh, (isGranted_iff s _).2 hg, if_true]

/-- Without a FREE slot, or with a frame to send and no class-2 place, the opening is refused (R68). -/
theorem takeOpening_refused (hf : (decide (r.kind = .redeem) && lineDown s) = false)
    (h : freeSlotNumber s = none ∨ txFree s .c2 = 0) :
    takeOpening r s = refuse (if freeSlotNumber s = none then .slots else .lineBusy) s := by
  cases hn : freeSlotNumber s with
  | none => simp only [takeOpening, hn, if_true]
  | some n =>
    have h0 : txFree s .c2 = 0 := by simpa [hn] using h
    simp [takeOpening, hn, hf, h0]

/-- The opening of a slot that sends its request: the frame's place is reserved, and the frame waits on the record (R68). -/
theorem takeOpening_sent (hf : (decide (r.kind = .redeem) && lineDown s) = false) (hn : freeSlotNumber s = some n)
    (h2 : 1 ≤ txFree s .c2) :
    takeOpening r s = makeRecord [.tagSeq (nextTag s)]
      [.slotFrame n (nextTag s) (cardHome r.card) (requestBody (newSlot (nextTag s) r))]
      (reserve .c2 (accept (nextTag s) [] (putTagSeq (nextTag s) (putSlot n (newSlot (nextTag s) r) s)))) := by
  have h1 : decide (txFree s .c2 < 1) = false := decide_eq_false (Nat.not_lt.2 h2)
  simp only [takeOpening, hn, hf, h1, Bool.and_false, Bool.false_eq_true, if_false]

/-- The opening of a REDEEM on a line that is down, without offline permitted: no frame, and its no-answer event at the take
(R68, R72). -/
theorem takeOpening_unsent (hk : r.kind = .redeem) (ho : r.offline = false) (hd : lineDown s = true)
    (hn : freeSlotNumber s = some n) :
    takeOpening r s = settleWaiting (endSlot n (newSlot (nextTag s) r) (plainNotice (nextTag s) r.card .noAnswer)
      (makeRecord [.tagSeq (nextTag s)] []
        (accept (nextTag s) [] (putTagSeq (nextTag s) (putSlot n (newSlot (nextTag s) r) s))))) := by
  have ha (u : State) : noAnswer n (newSlot (nextTag s) r) u =
      endSlot n (newSlot (nextTag s) r) (plainNotice (nextTag s) r.card .noAnswer) u := by
    simp only [noAnswer, newSlot, hk, redeemUnanswered, ho, Bool.false_eq_true, if_false, slotNotice]
  simp only [takeOpening, hn, hk, hd, decide_true, Bool.and_self, Bool.not_true, Bool.false_and, Bool.false_eq_true,
    if_false, if_true, ha]
  exact trySlot_of_none (pendingOf_endSlot ..)

end Opening

/-- Settles O48, by the line state, the free slot and the class-2 place. -/
theorem slotOpened : Obligations.SlotOpened := by
  intro s r n hg hh
  have he := slotOpening_granted hg hh
  have sends (hl : r.kind ≠ .redeem ∨ s.lc.line ≠ .silent ∧ s.lc.line ≠ .stuck) :
      (decide (r.kind = .redeem) && lineDown s) = false := by
    rcases hl with hk | ⟨h1, h2⟩
    · simp [hk]
    · simp [lineDown, h1, h2]
  refine ⟨fun hl => ⟨fun hn h2 => ?_, fun h => ?_⟩, fun hk ho hl hn => ?_⟩
  · rw [takeOpening_sent (s := leaveWaiting .opening s) (sends hl) hn h2] at he
    exact ⟨_, he, oneSlot_of_put rfl, rfl, rfl, rfl, rfl, rfl⟩
  · rw [takeOpening_refused (s := leaveWaiting .opening s) (sends hl) h] at he
    exact ⟨_, he, rfl, rfl⟩
  · have hd : lineDown s = true := by
      simpa only [lineDown, Bool.or_eq_true, decide_eq_true_eq] using hl
    rw [takeOpening_unsent (s := leaveWaiting .opening s) hk ho hd hn] at he
    refine ⟨_, he, ⟨slotAt_putSlot_self n _ _, fun m hm => ?_⟩, rfl, rfl, rfl, rfl⟩
    exact (slotAt_putSlot_of_ne n m _ _ hm).trans (slotAt_putSlot_of_ne n m _ _ hm)

end Sys2Proof.Machine

/-! ## Events of the line (R69, R105 to R118) -/
namespace Sys2Proof.Machine
open Safety

/-! ### The frame under way (R110 to R115) -/

section Sending
variable {s : State} {c : TxClass} {f : TxFrame} {rest : List TxFrame}

/-- The lowest class that holds a frame is offered (R110). -/
theorem headClass_of_lowest (hc : (txOf s.lc c).frames ≠ [])
    (hl : ∀ d, (classBits d).toNat < (classBits c).toNat → (txOf s.lc d).frames = []) : headClass s = some c := by
  have hc' : (txOf s.lc c).frames.isEmpty = false := by simpa using hc
  have he : ∀ d, (classBits d).toNat < (classBits c).toNat → (txOf s.lc d).frames.isEmpty = true := fun d hd => by
    rw [hl d hd]; rfl
  unfold headClass classes
  cases c with
  | c0 => simp only [List.find?, hc', Bool.not_false]
  | c1 => simp only [List.find?, hc', he .c0 (by decide), Bool.not_true, Bool.not_false]
  | c2 => simp only [List.find?, hc', he .c0 (by decide), he .c1 (by decide), Bool.not_true, Bool.not_false]
  | c3 =>
    simp only [List.find?, hc', he .c0 (by decide), he .c1 (by decide), he .c2 (by decide), Bool.not_true, Bool.not_false]

/-- A class queue is written apart from the other fields of the Line Controller. -/
theorem setTx_with (l : Lc) (x : LineState) (r : Receiver) (o : Option TxClass) (q : TxQueue) :
    setTx { l with line := x, receiver := r, sending := o } c q =
      { setTx l c q with line := x, receiver := r, sending := o } := by
  cases c <;> rfl

/-- The head frame of a class changed (R112, R115). -/
theorem mapHead_of_cons (g : TxFrame → TxFrame) (hf : (txOf s.lc c).frames = f :: rest) :
    mapHead g c s = { s with lc := setTx s.lc c { txOf s.lc c with frames := g f :: rest } } := by
  simp only [mapHead, hf]

theorem frameStart_ready (hu : isUp s = true) (hl : s.lc.line = .active) (hr : s.lc.receiver = .idle)
    (hs : s.lc.sending = none) (hh : headClass s = some c) :
    exec .frameStart s = .next { s with lc := { s.lc with sending := some c, receiver := .following } } := by
  show execFrameStart s = _
  have hready : readyToStart s = true := by simp [readyToStart, lineOn, hu, hl, hr, hs]
  simp only [execFrameStart, hh, hready, if_true]

theorem arbitrationLost_sending (hs : s.lc.sending = some c) (hf : (txOf s.lc c).frames = f :: rest) :
    exec .arbitrationLost s = .next { s with
      lc := setTx { s.lc with sending := none } c
        { txOf s.lc c with frames := ({ f with loss := min (f.loss + 1) 8 } : TxFrame) :: rest } } := by
  show execArbitrationLost s = _
  simp only [execArbitrationLost, hs, mapHead_of_cons _ hf]
  rw [setTx_with s.lc s.lc.line s.lc.receiver none, stopSending]
  simp only [setTx_line, setTx_receiver]

/-- The line after a clash: the frame under way stays, marked, and the receiver searches (R115). -/
def clashed (s : State) (c : TxClass) (f : TxFrame) (rest : List TxFrame) : State :=
  { s with
    lc := setTx { s.lc with sending := none, receiver := .searching } c
      { txOf s.lc c with frames := ({ f with clash := 1 } : TxFrame) :: rest } }

/-- A clash, at the frame's second one on an ACTIVE line with the line's failure (R108, R115). -/
theorem bodyClash_sending (hs : s.lc.sending = some c) (hf : (txOf s.lc c).frames = f :: rest) :
    exec .bodyClash s = if f.clash = 1 ∧ s.lc.line = .active then
      .next (settleWaiting (lineFails .silent (clashed s c f rest))) else .next (clashed s c f rest) := by
  have he : putReceiver .searching (stopSending (mapHead (fun f => { f with clash := 1 }) c s)) = clashed s c f rest := by
    rw [mapHead_of_cons _ hf, clashed, setTx_with s.lc s.lc.line .searching none, putReceiver, stopSending]
    simp only [setTx_line]
  show execBodyClash s = _
  simp only [execBodyClash, hs, he, hf, List.head?_cons, Option.map_some, Option.getD_some]

theorem frameSentWhole_sending (hs : s.lc.sending = some c) (hf : (txOf s.lc c).frames = f :: rest) :
    exec .frameSentWhole s = .next (settleWaiting { s with
      lc := setTx { s.lc with sending := none, receiver := .counting } c { txOf s.lc c with frames := rest } }) := by
  show execFrameSentWhole s = _
  simp only [execFrameSentWhole, hs, hf, List.tail_cons]
  rw [setTx_with s.lc s.lc.line .counting none, putReceiver, stopSending]
  simp only [setTx_line]

end Sending

/-! ### The line fails (R69, R105, R107, R108, R118) -/

theorem withdrawRequest_su (n : Nat) (g : Tag) (s : State) : (withdrawRequest n g s).su = s.su := by
  unfold withdrawRequest
  split <;> rfl

/-- At the line's failure an unanswered REDEEM without offline permitted ends with NO-ANSWER (R69, R72). -/
theorem lineNoAnswer_ended {s : State} {n : Nat} {sl : Slot} (hs : slotAt s n = some sl) (hw : waitsOnLine sl = true)
    (ho : sl.offline = false) : lineNoAnswer s n =
      settleWaiting (endSlot n sl (plainNotice sl.tag sl.card .noAnswer) (withdrawRequest n sl.tag s)) := by
  have hw' := hw
  simp only [waitsOnLine, Bool.and_eq_true, decide_eq_true_eq] at hw'
  obtain ⟨⟨hk, hst⟩, -⟩ := hw'
  have ha (u : State) : noAnswer n sl u = endSlot n sl (plainNotice sl.tag sl.card .noAnswer) u := by
    simp only [noAnswer, hst, hk, redeemUnanswered, ho, Bool.false_eq_true, if_false, slotNotice]
  simp only [lineNoAnswer, hs, hw, if_true, ha]
  exact trySlot_of_none (pendingOf_endSlot ..)

/-- With one slot in use, an unanswered REDEEM, the line's failure ends it (R69, R72). -/
theorem lineFails_one {s : State} {n : Nat} {sl : Slot} (l : LineState) (hs : s.su.slots = [(n, sl)])
    (hw : waitsOnLine sl = true) (ho : sl.offline = false) :
    (lineFails l s).su.slots = [(n, notifying sl)] ∧
      (lineFails l s).su.due = s.su.due ++ [⟨plainNotice sl.tag sl.card .noAnswer, some n, true⟩] := by
  set u := setEvent .line { s with lc := { s.lc with line := l } } with hu
  have hus : u.su.slots = [(n, sl)] := hs
  have hat : slotAt u n = some sl := by simp [slotAt, hus, Table.find_cons]
  have he : lineFails l s = lineNoAnswer u n := by
    show (u.su.slots.map (·.1)).foldl lineNoAnswer u = _
    rw [hus]
    rfl
  rw [he, lineNoAnswer_ended hat hw ho]
  show Table.put (withdrawRequest n sl.tag u).su.slots n _ = _ ∧ (withdrawRequest n sl.tag u).su.due ++ _ = _
  rw [withdrawRequest_su, hus]
  exact ⟨by simp [Table.put], rfl⟩

section Failure
variable {s : State}

theorem bodyClash_second {c : TxClass} {f : TxFrame} {rest : List TxFrame} (hs : s.lc.sending = some c)
    (hf : (txOf s.lc c).frames = f :: rest) (hc : f.clash = 1) (hl : s.lc.line = .active) :
    nextSatisfies (exec .bodyClash s) fun t => t.lc.line = .silent ∧ t.lc.receiver = .searching ∧ t.lc.sending = none ∧
      (s.su.slots = [] → noRecord s t ∧ t = { s with
        tp := { s.tp with events := s.tp.events ||| 0x08 }, ps := t.ps
        lc := setTx { s.lc with line := .silent, receiver := .searching, sending := none } c
          { txOf s.lc c with frames := ({ f with clash := 1 } : TxFrame) :: rest } }) := by
  have he := bodyClash_sending hs hf
  rw [if_pos ⟨hc, hl⟩] at he
  obtain ⟨h1, h2, h3, -, h5⟩ := lineFails_lc .silent (clashed s c f rest)
  refine ⟨_, he, h1, h2.trans ?_, h3.trans ?_, fun h0 => ?_⟩
  · simp only [clashed, setTx_receiver]
  · simp only [clashed, setTx_sending]
  · rw [h5 h0]
    refine ⟨rfl, State.ext rfl rfl rfl rfl ?_ rfl rfl rfl rfl⟩
    cases c <;> rfl

theorem ownNumber_heard {raw : RawFrame} {b : Body} (hb : takenBody raw = some b) (hs : raw.src = ownStation s)
    (hh : hearing s = true) (hl : s.lc.line = .active) :
    nextSatisfies (exec (.receiveQueueEntry raw) s) fun t => t.lc.line = .silent ∧ t.lc.receiver = .counting ∧
      t.lc.rx = s.lc.rx ∧ (s.su.slots = [] → noRecord s t ∧ t = { s with
        tp := { s.tp with events := s.tp.events ||| 0x08 }, ps := t.ps
        lc := { s.lc with line := .silent, receiver := .counting } }) := by
  have he := execReceiveQueueEntry_taken hh (by simp [hl]) hb
  have ht : takenFrame raw.src raw.dst b (frameEnded s) = lineFails .silent (frameEnded s) := by
    rw [takenFrame, if_pos (show raw.src = ownStation (frameEnded s) from hs),
      if_pos (show (frameEnded s).lc.line = .active from hl)]
  rw [ht] at he
  obtain ⟨h1, h2, -, h4, h5⟩ := lineFails_lc .silent (frameEnded s)
  refine ⟨_, he, h1, h2, h4, fun h0 => ?_⟩
  rw [h5 h0]
  exact ⟨rfl, rfl⟩

theorem stuckTimer_expired (hu : isUp s = true) (hl : s.lc.line = .active) (h0 : s.lc.stuck = 0) :
    nextSatisfies (exec .stuckTimerExpiry s) fun t => t.lc.line = .stuck ∧
      (s.su.slots = [] → noRecord s t ∧ t = { s with
        tp := { s.tp with events := s.tp.events ||| 0x08 }, lc := { s.lc with line := .stuck }, ps := t.ps }) ∧
      (∀ n sl, s.su.slots = [(n, sl)] → sl.kind = .redeem → sl.state = .asking → sl.pending = none → sl.offline = false →
        t.su.slots = [(n, notifying sl)] ∧
          t.su.due = s.su.due ++ [⟨plainNotice sl.tag sl.card .noAnswer, some n, true⟩]) := by
  have he : exec .stuckTimerExpiry s = .next (settleWaiting (lineFails .stuck s)) :=
    if_pos ⟨by simp [lineOn, hu, hl], hl, h0⟩
  obtain ⟨h1, -, -, -, h5⟩ := lineFails_lc .stuck s
  refine ⟨_, he, h1, fun hs => ?_, fun n sl hs hk hst hp ho => ?_⟩
  · rw [h5 hs]
    exact ⟨rfl, rfl⟩
  · exact lineFails_one .stuck hs (by simp [waitsOnLine, hk, hst, hp]) ho

end Failure

/-- Settles O57, event by event. -/
theorem lineEvents : Obligations.LineEvents := by
  intro s c f rest
  refine ⟨fun hu hl hr hs hc hd => frameStart_ready hu hl hr hs (headClass_of_lowest hc hd), arbitrationLost_sending,
    fun hs hf hc => ?_, bodyClash_second, fun hs hf => ?_, fun raw b => ownNumber_heard, fun hu hl hr => ?_,
    fun hu hl hr => ?_, stuckTimer_expired⟩
  · rw [bodyClash_sending hs hf, if_neg (by simp [hc])]
    rfl
  · exact ⟨_, frameSentWhole_sending hs hf, rfl, rfl⟩
  · have he : exec .idleGap s = .next (settleWaiting { s with lc := { s.lc with
        receiver := .idle, stuck := 500, line := if s.lc.line = .stuck then .active else s.lc.line } }) :=
      if_pos ⟨by simp [lineOn, hu, hl], hr⟩
    exact ⟨_, he, rfl, rfl⟩
  · exact if_pos ⟨by simp [lineOn, hu, hl], hr⟩

end Sys2Proof.Machine

/-! ## The steps of a slot (R73, R76, R81 to R84, R150, R178) -/
namespace Sys2Proof.Machine
open Safety

/-! ### Where a filing goes (R82, R83, R150) -/

section Filing
variable {s : State} {home : Station} {p : FilePos} {amount : Nat} {day : Day}

/-- The amount counted in the live line of the home (R82). -/
def countedLive (home : Station) (p : FilePos) (amount : Nat) (s : State) : State :=
  { s with tu := { s.tu with
    live := Table.set blankLine s.tu.live home.toNat (countActor (liveLine s home) p amount) } }

/-- A late filing beside a closing day: counted in the live line, LATE-FILING set, the closing pair DISPUTED (R83). -/
def disputedLate (home : Station) (p : FilePos) (amount : Nat) (s : State) : State :=
  putMark home .disputed (setEvent .lateFiling (countedLive home p amount s))

/-- The revised flag set, as at a computation's restart (R150). -/
def revising (s : State) : State := { s with tu := { s.tu with revised := true } }

/-- A computation restarts in COMPUTING and SETTLED (R150). -/
theorem restartComputation_eq (s : State) : restartComputation s =
    if s.tu.state = .computing ∨ s.tu.state = .settled then beginComputation (revising s) else s := by
  cases h : s.tu.state <;> simp [restartComputation, h, revising]

theorem fileActor_live (h : s.tu.liveDay = some day) : fileActor home p amount day s =
    (countedLive home p amount s, [.pairLive home (countActor (liveLine s home) p amount)]) := by
  have hp : filePlace s home day = .live := if_pos h
  simp only [fileActor, hp, if_true]
  rfl

theorem fileActor_closing (h : s.tu.liveDay ≠ some day) (hd : s.tu.round.day = some day)
    (hs : inSet s.tu.round.sent home = false) : fileActor home p amount day s =
      ({ s with tu := { s.tu with
        closing := Table.set blankLine s.tu.closing home.toNat (countActor (closingLine s home) p amount) } },
       [.pairClosing home (countActor (closingLine s home) p amount) (markOf s home) none]) := by
  have hp : filePlace s home day = .closing := by rw [filePlace, if_neg h, if_pos ⟨hd, hs⟩]
  simp only [fileActor, hp]

section Late
variable (h : s.tu.liveDay ≠ some day) (hl : s.tu.round.day ≠ some day ∨ inSet s.tu.round.sent home = true)
include h hl

/-- A day that is neither live nor closing for the home is filed late (R83). -/
theorem filePlace_late : filePlace s home day = .late := by
  rw [filePlace, if_neg h, if_neg]
  rintro ⟨h1, h2⟩
  rcases hl with h | h
  · exact h h1
  · rw [h] at h2
    cases h2

theorem fileActor_undated (hd : s.tu.round.day = none) : fileActor home p amount day s =
    (setEvent .lateFiling (countedLive home p amount s), [.pairLive home (countActor (liveLine s home) p amount)]) := by
  simp only [fileActor, filePlace_late h hl, reduceCtorEq, if_false, setEvent_tu, hd, Option.isSome_none,
    Bool.false_eq_true]
  rfl

/-- With a closing day the pair becomes DISPUTED, and the computation restarts when that changes a member's mark (R83,
R150). -/
theorem fileActor_dated (hd : s.tu.round.day ≠ none) : fileActor home p amount day s =
    (if markOf s home ≠ .disputed ∧ isMember s home = true ∧ (s.tu.state = .computing ∨ s.tu.state = .settled) then
        beginComputation (revising (disputedLate home p amount s))
      else disputedLate home p amount s,
     [.pairLive home (countActor (liveLine s home) p amount),
      .pairClosing home (closingLine s home) .disputed none]) := by
  have hd' : s.tu.round.day.isSome = true := Option.isSome_iff_ne_none.2 hd
  have hr := restartComputation_eq (disputedLate home p amount s)
  simp only [fileActor, filePlace_late h hl, reduceCtorEq, if_false, setEvent_tu, hd', if_true]
  refine Prod.ext ?_ rfl
  show (if markOf s home ≠ .disputed ∧ isMember s home = true then restartComputation (disputedLate home p amount s)
    else disputedLate home p amount s) = _
  by_cases hc : markOf s home ≠ .disputed ∧ isMember s home = true
  · rw [if_pos hc, hr]
    exact if_congr ⟨fun hs => ⟨hc.1, hc.2, hs⟩, fun hs => hs.2.2⟩ rfl rfl
  · rw [if_neg hc]
    exact (if_neg fun hs => hc ⟨hs.1, hs.2.1⟩).symm

end Late
end Filing

/-! ### Steps made in the place granted to them (R81, R126) -/

section Made
variable {s : State} {n : Nat} {sl : Slot}

/-- A pending step granted its place is made (R81, R126). -/
theorem stepIfGranted_made (hg : granted s = some (.slot n)) :
    stepIfGranted n s = settleWaiting (performSlotStep n (leaveWaiting (.slot n) s)) := by
  rw [stepIfGranted, if_pos ((isGranted_iff s _).2 hg)]

theorem pendingOf_of_slotAt {w : Option SlotStep} (hs : slotAt s n = some sl) (hp : sl.pending = w) :
    pendingOf s n = w := by
  rw [pendingOf, hs]
  exact hp

/-- The offline decision's first limit that fails (R73). -/
theorem offlineFails_eq (s : State) (sl : Slot) : offlineFails s sl =
    if s.tp.config.cardLimit < sl.amount + cardOffline s.dq.area.entries sl.card ∨
        s.tp.config.stationCap < s.dq.area.exposure + sl.amount ∨ 64 ≤ s.dq.area.entries.length then
      some (if s.tp.config.cardLimit < sl.amount + cardOffline s.dq.area.entries sl.card then .cardLimit
        else if s.tp.config.stationCap < s.dq.area.exposure + sl.amount then .stationCap else .queueFull)
    else none := by
  unfold offlineFails Config.deferred
  by_cases h1 : s.tp.config.cardLimit < sl.amount + cardOffline s.dq.area.entries sl.card
  · rw [if_pos h1, if_pos (.inl h1), if_pos h1]
  · rw [if_neg h1, if_neg h1]
    by_cases h2 : s.tp.config.stationCap < s.dq.area.exposure + sl.amount
    · rw [if_pos h2, if_pos (.inr (.inl h2)), if_pos h2]
    · rw [if_neg h2, if_neg h2]
      exact if_congr ⟨fun h3 => .inr (.inr h3), fun h => (h.resolve_left h1).resolve_left h2⟩ rfl rfl

theorem performSlotStep_offlineRefused {r : Reason} (hs : slotAt s n = some sl) (hp : sl.pending = some .offline)
    (hr : offlineFails s sl = some r) :
    performSlotStep n s = endSlot n sl { slotNotice sl .noAnswer with reason := r } s := by
  simp only [performSlotStep, hs, hp, hr]

theorem performSlotStep_offlineAccepted (hs : slotAt s n = some sl) (hp : sl.pending = some .offline)
    (hr : offlineFails s sl = none) : performSlotStep n s = joinEntry n sl (entryOf s sl .post .offline none)
      { slotNotice sl .offlineAccepted with amountA := sl.amount } s := by
  simp only [performSlotStep, hs, hp, hr]

theorem performSlotStep_deferred {e : DeferredEntry} (hs : slotAt s n = some sl)
    (he : sl.pending = some .deferLate ∧ e = entryOf s sl .post .late none ∨
      sl.pending = some .deferRetry ∧ e = entryOf s sl .claimRetry .none (sl.hold.map (·.1))) :
    performSlotStep n s = joinEntry n sl e { slotNotice sl .captureDeferred with amountA := sl.amount } s := by
  rcases he with ⟨hp, rfl⟩ | ⟨hp, rfl⟩ <;> simp only [performSlotStep, hs, hp]

theorem performSlotStep_file {pos : FilePos} {amount : Nat} {day : Option Day} {m : Notice} (hs : slotAt s n = some sl)
    (hp : sl.pending = some (.file pos amount day m)) :
    performSlotStep n s = makeRecord (fileActor (cardHome sl.card) pos amount (day.getD (liveDay s)) s).2
      [.slotNotice n { m with day := day.getD (liveDay s) }]
      (putSlot n { sl with pending := none } (fileActor (cardHome sl.card) pos amount (day.getD (liveDay s)) s).1) := by
  simp only [performSlotStep, hs, hp]

end Made

/-! ### The commands of the steps -/

section Steps
variable {s : State} {n : Fin 32} {sl : Slot} (hs : slotAt s n.val = some sl) (hg : granted s = some (.slot n.val))
include hs hg

theorem offlineDecision_made (hp : sl.pending = some .offline) :
    exec (.offlineDecision n) s = .next (settleWaiting (performSlotStep n.val (leaveWaiting (.slot n.val) s))) := by
  rw [← stepIfGranted_made hg]
  show execOfflineDecision n s = _
  simp only [execOfflineDecision, pendingOf_of_slotAt hs hp]

theorem deferredEntry_made (hp : sl.pending = some .deferLate ∨ sl.pending = some .deferRetry) :
    exec (.slotDeferredEntry n) s = .next (settleWaiting (performSlotStep n.val (leaveWaiting (.slot n.val) s))) := by
  rw [← stepIfGranted_made hg]
  show execSlotDeferredEntry n s = _
  rcases hp with hp | hp <;> simp only [execSlotDeferredEntry, pendingOf_of_slotAt hs hp]

/-- A slot after its filing: its step is gone, and its notice waits on the record of these updates (R82). -/
def filed (n : Nat) (sl : Slot) (m : Notice) (f : State × List AreaUpdate) : State :=
  settleWaiting (makeRecord f.2 [.slotNotice n m] (putSlot n { sl with pending := none } f.1))

theorem actorFiling_made {pos : FilePos} {amount : Nat} {od : Option Day} {m : Notice}
    (hp : sl.pending = some (.file pos amount od m)) : exec (.actorFiling n) s =
      .next (filed n.val sl { m with day := od.getD (liveDay s) }
        (fileActor (cardHome sl.card) pos amount (od.getD (liveDay s)) (leaveWaiting (.slot n.val) s))) := by
  have he : exec (.actorFiling n) s = .next (stepIfGranted n.val s) := by
    show execActorFiling n s = _
    simp only [execActorFiling, pendingOf_of_slotAt hs hp]
  rw [he, stepIfGranted_made hg, performSlotStep_file (s := leaveWaiting (.slot n.val) s) hs hp]
  rfl

end Steps

/-! ### What a filing leaves (R82, R83, R150) -/

section Filed
variable {s : State} {n : Nat} {sl : Slot} {home : Station} {pos : FilePos} {amount : Nat} {day : Day} {m : Notice}

/-- A filing changes its slot, the Till Port's events, the Tally Unit and the Posting Store alone. -/
theorem filed_frame : oneSlot s (filed n sl m (fileActor home pos amount day s)) n (some { sl with pending := none }) ∧
    filed n sl m (fileActor home pos amount day s) = { s with
      tp := (filed n sl m (fileActor home pos amount day s)).tp
      su := { s.su with slots := (filed n sl m (fileActor home pos amount day s)).su.slots }
      tu := (filed n sl m (fileActor home pos amount day s)).tu
      ps := (filed n sl m (fileActor home pos amount day s)).ps } := by
  have hf := fileActor_only home pos amount day s
  have hsu : (fileActor home pos amount day s).1.su = s.su := by rw [hf]
  refine ⟨oneSlot_of_put ?_, State.ext rfl ?_ ?_ ?_ ?_ rfl rfl ?_ ?_⟩
  · exact congrArg (fun x => Table.put (Su.slots x) n _) hsu
  · show (fileActor home pos amount day s).1.ctu = _
    rw [hf]
  · exact congrArg (fun x : Su => { x with
      slots := Table.put (fileActor home pos amount day s).1.su.slots n { sl with pending := none } }) hsu
  · show (fileActor home pos amount day s).1.dq = _
    rw [hf]
  · show (fileActor home pos amount day s).1.lc = _
    rw [hf]
  · show (fileActor home pos amount day s).1.choices = _
    rw [hf]
  · show (fileActor home pos amount day s).1.pending = _
    rw [hf]

/-- The live day: the live line alone is counted in (R82). -/
theorem filed_live (hr : Table.rises s.tu.live = true) (h : s.tu.liveDay = some day) {t : State}
    (ht : t = filed n sl m (fileActor home pos amount day s)) :
    oneLine s t home (countActor (liveLine s home) pos amount) ∧
      oneRecord s t [.pairLive home (countActor (liveLine s home) pos amount)] [.slotNotice n m] ∧
      t.tp = s.tp ∧ t.tu = { s.tu with live := t.tu.live } := by
  rw [fileActor_live h] at ht
  subst ht
  exact ⟨oneLine_of_set hr rfl, rfl, rfl, rfl⟩

/-- The closing day of a home not in the tallies-sent set: the closing line alone is counted in (R82). -/
theorem filed_closing (hr : Table.rises s.tu.closing = true) (h : s.tu.liveDay ≠ some day)
    (hd : s.tu.round.day = some day) (hs : inSet s.tu.round.sent home = false) {t : State}
    (ht : t = filed n sl m (fileActor home pos amount day s)) :
    closingLine t home = countActor (closingLine s home) pos amount ∧
      (∀ x, x ≠ home → closingLine t x = closingLine s x) ∧
      oneRecord s t [.pairClosing home (countActor (closingLine s home) pos amount) (markOf s home) none]
        [.slotNotice n m] ∧
      t.tp = s.tp ∧ t.tu = { s.tu with closing := t.tu.closing } := by
  rw [fileActor_closing h hd hs] at ht
  subst ht
  refine ⟨Table.get_set_self _ _ _ _ hr, fun x hx => ?_, rfl, rfl, rfl⟩
  exact Table.get_set_of_ne _ _ _ _ _ hr fun hn => hx (BitVec.eq_of_toNat_eq hn)

/-- Another day: the live line is counted in and LATE-FILING set; with a closing day the pair is DISPUTED, and the
computation restarts in COMPUTING and SETTLED when that changes a member's mark (R83, R150). -/
theorem filed_late (hr : Table.rises s.tu.live = true) (hm : Table.rises s.tu.marks = true)
    (h : s.tu.liveDay ≠ some day) (hl : s.tu.round.day ≠ some day ∨ inSet s.tu.round.sent home = true) {t : State}
    (ht : t = filed n sl m (fileActor home pos amount day s)) :
    oneLine s t home (countActor (liveLine s home) pos amount) ∧ t.tp = { s.tp with events := s.tp.events ||| 0x40 } ∧
      (s.tu.round.day = none → t.tu = { s.tu with live := t.tu.live } ∧
        oneRecord s t [.pairLive home (countActor (liveLine s home) pos amount)] [.slotNotice n m]) ∧
      (s.tu.round.day ≠ none → markOf t home = .disputed ∧ (∀ x, x ≠ home → markOf t x = markOf s x) ∧
        oneRecord s t [.pairLive home (countActor (liveLine s home) pos amount),
          .pairClosing home (closingLine s home) .disputed none] [.slotNotice n m] ∧
        t.tu = if markOf s home ≠ .disputed ∧ isMember s home = true ∧
            (s.tu.state = .computing ∨ s.tu.state = .settled) then
          { s.tu with
            live := t.tu.live, marks := t.tu.marks, revised := true, state := .computing, result := none
            computing := some (computeInputs t) }
        else { s.tu with live := t.tu.live, marks := t.tu.marks }) := by
  by_cases hd : s.tu.round.day = none
  · rw [fileActor_undated h hl hd] at ht
    subst ht
    exact ⟨oneLine_of_set hr rfl, rfl, fun _ => ⟨rfl, rfl⟩, fun hc => absurd hd hc⟩
  · rw [fileActor_dated h hl hd] at ht
    by_cases hc : markOf s home ≠ .disputed ∧ isMember s home = true ∧ (s.tu.state = .computing ∨ s.tu.state = .settled)
    · rw [if_pos hc] at ht
      have hm' := markOf_of_set (t := t) (m := .disputed) hm (by rw [ht]; rfl)
      subst ht
      exact ⟨oneLine_of_set hr rfl, rfl, fun hn => absurd hn hd, fun _ => ⟨hm'.1, hm'.2, rfl, by rw [if_pos hc]; rfl⟩⟩
    · rw [if_neg hc] at ht
      have hm' := markOf_of_set (t := t) (m := .disputed) hm (by rw [ht]; rfl)
      subst ht
      exact ⟨oneLine_of_set hr rfl, rfl, fun hn => absurd hn hd, fun _ => ⟨hm'.1, hm'.2, rfl, by rw [if_neg hc]; rfl⟩⟩

end Filed

/-! ### The entry of a due notice (R84, R178) -/

theorem noticeEntry_taken {s : State} {d : DueNotice} {rest : List DueNotice} (hd : s.su.due = d :: rest)
    (hf : 1 ≤ freePlaces s) (ho : isOpen s = true) :
    nextSatisfies (exec .noticeEntry s) fun t =>
      t.tp = { s.tp with notices := s.tp.notices ++ [d.notice], events := s.tp.events ||| 0x01 } ∧
      (∀ n, d.slot = some n → d.terminal = true → Table.rises s.su.slots = true → oneSlot s t n none) ∧
      (d.slot = none ∨ d.terminal = false → t.su.slots = s.su.slots) ∧
      t.su = { s.su with slots := t.su.slots, due := rest } ∧ noRecord s t ∧
      t = { s with tp := t.tp, su := t.su, ps := t.ps } := by
  have he : exec .noticeEntry s = .next (settleWaiting (enterDue d s)) := by
    show execNoticeEntry s = _
    simp only [execNoticeEntry, hd, hf, ho, and_self, if_true]
  refine ⟨_, he, ?_⟩
  have ht : s.su.due.tail = rest := by rw [hd, List.tail_cons]
  obtain ⟨notice, slot, terminal⟩ := d
  cases slot with
  | none =>
    simp only [enterDue, ht]
    exact ⟨rfl, fun _ hc => absurd hc (by simp), fun _ => rfl, rfl, rfl, rfl⟩
  | some k =>
    cases terminal with
    | false =>
      simp only [enterDue, ht]
      exact ⟨rfl, fun _ _ hc => absurd hc (by simp), fun _ => rfl, rfl, rfl, rfl⟩
    | true =>
      simp only [enterDue, ht]
      refine ⟨rfl, fun n hn _ hr => ?_, fun hc => absurd hc (by simp), rfl, rfl, rfl⟩
      cases hn
      exact ⟨Table.find_drop_self _ _ hr, fun j hj => Table.find_drop_of_ne _ _ _ hr hj⟩

/-- Settles O50, by the slot's pending step and the day of its filing. -/
theorem slotSteps : Obligations.SlotSteps := by
  refine ⟨fun s n sl e hs hg => ⟨fun hp h1 h2 h3 he => ?_, fun hp h => ?_, fun he => ?_⟩, ?_,
    fun s d rest => noticeEntry_taken⟩
  · have hf : offlineFails s sl = none := by rw [offlineFails_eq, if_neg (by omega)]
    have hx := offlineDecision_made hs hg hp
    rw [performSlotStep_offlineAccepted (s := leaveWaiting (.slot n.val) s) hs hp hf] at hx
    subst he
    exact ⟨_, hx, rfl, oneSlot_of_put rfl, rfl, rfl⟩
  · have hf := offlineFails_eq s sl
    rw [if_pos h] at hf
    have hx := offlineDecision_made hs hg hp
    rw [performSlotStep_offlineRefused (s := leaveWaiting (.slot n.val) s) hs hp hf] at hx
    exact ⟨_, hx, oneSlot_of_put rfl, rfl, rfl⟩
  · have hx := deferredEntry_made hs hg (he.imp And.left And.left)
    rw [performSlotStep_deferred (s := leaveWaiting (.slot n.val) s) hs he] at hx
    refine ⟨_, hx, ?_⟩
    rcases he with ⟨-, rfl⟩ | ⟨-, rfl⟩
    · exact ⟨rfl, oneSlot_of_put rfl, rfl, rfl⟩
    · exact ⟨rfl, oneSlot_of_put rfl, rfl, rfl⟩
  · intro s n sl pos amount od day notice home l c hs hg hp hday hhome hl hc hm hll hcl
    subst hday hhome hll hcl
    obtain ⟨h1, h2⟩ := filed_frame (s := leaveWaiting (.slot n.val) s) (n := n.val) (sl := sl) (home := cardHome sl.card)
      (pos := pos) (amount := amount) (day := od.getD (liveDay s)) (m := { notice with day := od.getD (liveDay s) })
    exact ⟨_, actorFiling_made hs hg hp, h1, h2, fun h => filed_live (s := leaveWaiting (.slot n.val) s) hl h rfl,
      fun h hd hin => filed_closing (s := leaveWaiting (.slot n.val) s) hc h hd hin rfl,
      fun h hlate => filed_late (s := leaveWaiting (.slot n.val) s) hl hm h hlate rfl⟩

end Sys2Proof.Machine

/-! ## The slot law and the entry law (R65, R66, R87 to R89, R95)

`slotView s` is what the two laws read of the state, and `SlotView.Lawful` is what they say of it: the slot law, and under
`e` the entry law with it, so that one walk over the commands serves both. Each write has one rule. -/
namespace Sys2Proof.Machine
open Safety

/-! ### The view of slots and deferred entries -/

/-- The slots, the hold table, the DEFERRED area in memory, in the store and in the records, the pending step about it. -/
structure SlotView where
  slots : Table Slot
  holds : Table HoldEntry
  area : DeferredArea
  step : Option DqStep
  stored : DeferredArea
  queued : List DeferredArea

/-- The DEFERRED area an update carries. -/
def deferredOf : AreaUpdate → Option DeferredArea
  | .deferred a => some a
  | _ => none

/-- The DEFERRED areas that the records of a queue carry. -/
def queuedAreas (q : List PostingRecord) : List DeferredArea := q.flatMap fun r => r.updates.filterMap deferredOf

def slotView (s : State) : SlotView :=
  ⟨s.su.slots, s.ctu.holds, s.dq.area, s.dq.pending, s.ps.store.deferred, queuedAreas s.ps.queue⟩

theorem mem_filterMap_deferredOf {us : List AreaUpdate} {a : DeferredArea} :
    a ∈ us.filterMap deferredOf ↔ AreaUpdate.deferred a ∈ us := by
  rw [List.mem_filterMap]
  refine ⟨fun ⟨u, hu, ha⟩ => ?_, fun h => ⟨_, h, rfl⟩⟩
  cases u <;> cases ha
  exact hu

theorem mem_queuedAreas {q : List PostingRecord} {a : DeferredArea} :
    a ∈ queuedAreas q ↔ ∃ r ∈ q, AreaUpdate.deferred a ∈ r.updates := by
  simp only [queuedAreas, List.mem_flatMap, mem_filterMap_deferredOf]

/-- A slot in HELD has its hold, and its hold timer runs (R66). -/
def HeldComplete (sl : Slot) : Prop := sl.state = .held → sl.hold.isSome = true ∧ sl.holdTimer.isSome = true

/-- A slot that makes no deferred entry again: it has ended, and no step but a filing is pending. -/
def Settled (sl : Slot) : Prop :=
  sl.state = .notifying ∧ (sl.pending = none ∨ ∃ p m d n, sl.pending = some (.file p m d n))

/-- A slot may become another: of the same tag, complete in HELD if it was, and settled if it was. -/
structure Follows (sl sl' : Slot) : Prop where
  tag : sl'.tag = sl.tag
  held : HeldComplete sl → HeldComplete sl'
  settled : Settled sl → Settled sl'

namespace SlotView

/-- The slot law, by reading (R66). -/
structure SlotsLaw (v : SlotView) : Prop where
  rises : Table.rises v.slots = true
  each : ∀ n sl, Table.find v.slots n = some sl → n < 32 ∧ HeldComplete sl

/-- The entry law, by reading (R65, R87 to R89, R95). -/
structure EntriesLaw (v : SlotView) : Prop where
  tags : ∀ n m a b, Table.find v.slots n = some a → Table.find v.slots m = some b → a.tag = b.tag → n = m
  holds : Table.rises v.holds = true
  bound : ∀ x ∈ v.holds, x.1 < 256
  area : areaLaw v.area
  stored : areaLaw v.stored
  queued : ∀ a ∈ v.queued, areaLaw a
  settled : ∀ n sl, Table.find v.slots n = some sl → (∃ x ∈ v.area.entries, x.tag = sl.tag) → Settled sl
  step : v.step ≠ none → ∃ x ∈ v.area.entries, x.sent = true
  convert : v.step = some .convert → ∀ x ∈ v.area.entries, x.sent = true → x.kind = .claimRetry

/-- The slot law, and under `e` the entry law. -/
structure Lawful (e : Prop) (v : SlotView) : Prop where
  slots : v.SlotsLaw
  entries : e → v.EntriesLaw

end SlotView

/-! ### The laws as they are stated -/

section Reading
variable {α β : Type} {t : Table α}

/-- What holds of every entry of a rising table holds of every reading. -/
theorem Table.forall_find_iff {p : Nat → α → Prop} (h : Table.rises t = true) :
    (∀ n v, Table.find t n = some v → p n v) ↔ ∀ x ∈ t, p x.1 x.2 :=
  ⟨fun hp x hx => hp x.1 x.2 (Table.find_of_mem h hx), fun hp n v hv => hp (n, v) (Table.mem_of_find hv)⟩

/-- The values of a rising table differ when two readings of one value are readings of one index. -/
theorem Table.nodup_map_iff (f : α → β) (h : Table.rises t = true) : (t.map fun x => f x.2).Nodup ↔
    ∀ n m a b, Table.find t n = some a → Table.find t m = some b → f a = f b → n = m := by
  have hi := (Table.nodup_of_risesFrom h).1
  refine ⟨fun hd n m a b ha hb hab => ?_, fun hr => ?_⟩
  · exact congrArg Prod.fst (List.inj_on_of_nodup_map hd (Table.mem_of_find ha) (Table.mem_of_find hb) hab)
  · refine List.Nodup.map_on (fun x hx y hy hxy => ?_) hi.of_map
    have hn := hr x.1 y.1 x.2 y.2 (Table.find_of_mem h hx) (Table.find_of_mem h hy) hxy
    exact List.inj_on_of_nodup_map hi hx hy hn

end Reading

theorem slotLaw_iff (s : State) : slotLaw s ↔ (slotView s).SlotsLaw :=
  ⟨fun ⟨hr, hs⟩ => ⟨hr, (Table.forall_find_iff hr).2 hs⟩, fun ⟨hr, hs⟩ => ⟨hr, (Table.forall_find_iff hr).1 hs⟩⟩

theorem entryLaw_iff {s : State} (h : slotLaw s) : entryLaw s ↔ (slotView s).EntriesLaw := by
  obtain ⟨hr, -⟩ := h
  have ht := Table.nodup_map_iff Slot.tag hr
  have hs := Table.forall_find_iff (p := fun _ sl => (∃ x ∈ s.dq.area.entries, x.tag = sl.tag) → Settled sl) hr
  have hq : (∀ a ∈ queuedAreas s.ps.queue, areaLaw a) ↔
      ∀ r ∈ s.ps.queue, ∀ a, AreaUpdate.deferred a ∈ r.updates → areaLaw a := by
    simp only [mem_queuedAreas]
    exact ⟨fun h r hr a ha => h a ⟨r, hr, ha⟩, fun h a ⟨r, hr, ha⟩ => h r hr a ha⟩
  refine ⟨fun ⟨h1, h2, h3, h4, h5, h6, h7, h8, h9⟩ => ?_, fun h => ?_⟩
  · exact ⟨ht.1 h1, h2, h3, h4, h5, hq.2 h6, hs.2 h7, h8, h9⟩
  · exact ⟨ht.2 h.tags, h.holds, h.bound, h.area, h.stored, hq.1 h.queued, hs.1 h.settled, h.step, h.convert⟩

theorem lawful_iff (e : Prop) (s : State) : (slotView s).Lawful e ↔ slotLaw s ∧ (e → entryLaw s) := by
  refine ⟨fun h => ?_, fun ⟨hs, he⟩ => ⟨(slotLaw_iff s).1 hs, fun hp => (entryLaw_iff hs).1 (he hp)⟩⟩
  have hs := (slotLaw_iff s).2 h.slots
  exact ⟨hs, fun hp => (entryLaw_iff hs).2 (h.entries hp)⟩

/-! ### The DEFERRED area (R87 to R89) -/

/-- What an entry adds to the exposure (R89). -/
def exposed (x : DeferredEntry) : Nat := if x.origin = .offline then x.amount else 0

theorem offlineSum_eq (es : List DeferredEntry) : offlineSum es = (es.map exposed).sum := by
  unfold offlineSum
  induction es with
  | nil => rfl
  | cons x es ih =>
    rw [List.map_cons, List.sum_cons, ← ih, List.filter_cons]
    by_cases h : x.origin = .offline <;> simp [exposed, h]

/-- A sum is that of the elements that pass a test and that of those that do not. -/
theorem sum_map_filter {α : Type} (f : α → Nat) (p : α → Bool) (l : List α) :
    (l.map f).sum = ((l.filter p).map f).sum + ((l.filter fun x => !p x).map f).sum := by
  induction l with
  | nil => rfl
  | cons x l ih =>
    rw [List.filter_cons, List.filter_cons, List.map_cons, List.sum_cons, ih]
    cases p x <;> simp <;> omega

section Area
variable {a : DeferredArea} {x : DeferredEntry}

/-- A SENT entry is the only one (R88). -/
theorem filter_sent (h : areaLaw a) (hx : x ∈ a.entries) (hs : x.sent = true) : a.entries.filter (·.sent) = [x] := by
  obtain ⟨-, -, h1, -⟩ := h
  have hm : x ∈ a.entries.filter (·.sent) := List.mem_filter.2 ⟨hx, hs⟩
  obtain ⟨y, hy⟩ := List.length_eq_one_iff.1 (Nat.le_antisymm h1 (List.length_pos_of_mem hm))
  rw [hy] at hm ⊢
  rw [List.mem_singleton.1 hm]

/-- The entry of a tag is the only one (R87). -/
theorem filter_tag (h : areaLaw a) (hx : x ∈ a.entries) : (a.entries.filter fun y => y.tag == x.tag) = [x] := by
  obtain ⟨-, hd, -⟩ := h
  generalize a.entries = l at hd hx
  induction l with
  | nil => cases hx
  | cons y l ih =>
    rw [List.map_cons, List.nodup_cons] at hd
    obtain ⟨hn, hd⟩ := hd
    rcases List.mem_cons.1 hx with rfl | hx
    · rw [List.filter_cons_of_pos (by simp), List.filter_eq_nil_iff.2]
      intro z hz hzx
      exact hn (List.mem_map.2 ⟨z, hz, by simpa using hzx⟩)
    · have hy : y.tag ≠ x.tag := fun he => hn (List.mem_map.2 ⟨x, hx, he.symm⟩)
      rw [List.filter_cons_of_neg (by simpa using hy), ih hd hx]

/-- An entry joins at the tail (R88, R89). -/
theorem areaLaw_append (h : areaLaw a) (hl : a.entries.length < 64) (ht : ∀ y ∈ a.entries, y.tag ≠ x.tag)
    (hs : x.sent = false) (hk : x.kind = .claimRetry → x.origin = .none) :
    areaLaw ⟨a.entries ++ [x], a.exposure + if x.origin = .offline then x.amount else 0⟩ := by
  obtain ⟨-, hd, h1, he, hc⟩ := h
  refine ⟨by simp; omega, ?_, ?_, ?_, fun y hy => ?_⟩
  · rw [List.map_append, List.nodup_append]
    refine ⟨hd, by simp, fun b hb c hc' => ?_⟩
    obtain ⟨y, hy, rfl⟩ := List.mem_map.1 hb
    rw [List.mem_singleton.1 hc']
    exact ht y hy
  · rw [List.filter_append, List.filter_cons_of_neg (by simp [hs])]
    simpa using h1
  · rw [offlineSum_eq, List.map_append, List.sum_append, ← offlineSum_eq, ← he]
    simp [exposed]
  · rcases List.mem_append.1 hy with hy | hy
    · exact hc y hy
    · rw [List.mem_singleton.1 hy]
      exact hk

/-- Some entries leave, and the exposure falls by theirs (R89, R96, R97, R101). -/
theorem areaLaw_filter (h : areaLaw a) (p : DeferredEntry → Bool) {n : Nat}
    (hn : n = ((a.entries.filter fun y => !p y).map exposed).sum) : areaLaw ⟨a.entries.filter p, a.exposure - n⟩ := by
  obtain ⟨hl, hd, h1, he, hc⟩ := h
  refine ⟨(List.length_filter_le ..).trans hl, hd.sublist (List.filter_sublist.map _), ?_, ?_,
    fun y hy => hc y (List.mem_of_mem_filter hy)⟩
  · exact ((List.filter_sublist.filter _).length_le).trans h1
  · have hs := sum_map_filter exposed p a.entries
    rw [offlineSum_eq] at he ⊢
    simp only
    omega

/-- Entries change, none in its tag, none into a CLAIM-RETRY with an origin, at most one SENT (R87 to R89). -/
theorem areaLaw_map (h : areaLaw a) (g : DeferredEntry → DeferredEntry) {n : Nat} (ht : ∀ y, (g y).tag = y.tag)
    (hs : ((a.entries.map g).filter (·.sent)).length ≤ 1) (hn : n = (a.entries.map fun y => exposed (g y)).sum)
    (hk : ∀ y ∈ a.entries, (g y).kind = .claimRetry → (g y).origin = .none) : areaLaw ⟨a.entries.map g, n⟩ := by
  obtain ⟨hl, hd, -, -, -⟩ := h
  refine ⟨by simpa using hl, ?_, hs, ?_, fun y hy => ?_⟩
  · rw [List.map_map, show (fun x : DeferredEntry => x.tag) ∘ g = fun x => x.tag from funext ht]
    exact hd
  · rw [offlineSum_eq, List.map_map, hn]
    rfl
  · obtain ⟨z, hz, rfl⟩ := List.mem_map.1 hy
    exact hk z hz

/-- The SENT entry leaves (R89, R96, R97). -/
theorem areaLaw_removeSent (h : areaLaw a) (hx : x ∈ a.entries) (hs : x.sent = true) : areaLaw (removeSent a x) := by
  refine areaLaw_filter h _ ?_
  simp only [Bool.not_not, filter_sent h hx hs, List.map_cons, List.map_nil, List.sum_cons, List.sum_nil, Nat.add_zero]
  rfl

/-- The SENT entry goes back to WAITING, its exposure unchanged (R94, R98, R99). -/
theorem areaLaw_mapSent (h : areaLaw a) (f : DeferredEntry → DeferredEntry) (ht : ∀ y, (f y).tag = y.tag)
    (hs : ∀ y, (f y).sent = false) (hx : ∀ y ∈ a.entries, y.sent = true → exposed (f y) = exposed y)
    (hk : ∀ y ∈ a.entries, (f y).kind = .claimRetry → (f y).origin = .none) :
    areaLaw { a with entries := mapSent f a.entries } := by
  have h' := h
  obtain ⟨-, -, -, he, hc⟩ := h'
  refine areaLaw_map h (fun y => if y.sent then f y else y) (fun y => ?_) ?_ ?_ fun y hy => ?_
  · split
    · exact ht y
    · rfl
  · rw [List.filter_eq_nil_iff.2 fun y hy => ?_]
    · exact Nat.zero_le 1
    · obtain ⟨z, -, rfl⟩ := List.mem_map.1 hy
      by_cases hz : z.sent <;> simp [hz, hs]
  · rw [he, offlineSum_eq]
    refine congrArg List.sum (List.map_congr_left fun y hy => ?_)
    split
    · next hy' => exact (hx y hy hy').symm
    · rfl
  · split
    · exact hk y hy
    · exact hc y hy

/-- A WAITING entry becomes the SENT one (R88, R93). -/
theorem areaLaw_forward (h : areaLaw a) (hn : ∀ y ∈ a.entries, y.sent = false) (hx : x ∈ a.entries) :
    areaLaw { a with entries := a.entries.map fun y => if y.tag == x.tag then { y with sent := true } else y } := by
  have h' := h
  obtain ⟨-, -, -, he, hc⟩ := h'
  refine areaLaw_map h (fun y => if y.tag == x.tag then { y with sent := true } else y) (fun y => ?_) ?_ ?_ fun y hy => ?_
  · split <;> rfl
  · have hf : ((a.entries.map fun y => if y.tag == x.tag then { y with sent := true } else y).filter (·.sent)).length =
        (a.entries.filter fun y => y.tag == x.tag).length := by
      rw [List.filter_map, List.length_map]
      refine congrArg List.length (List.filter_congr fun y hy => ?_)
      by_cases hy' : y.tag = x.tag <;> simp [hy', hn y hy]
    rw [hf, filter_tag h hx, List.length_singleton]
  · rw [he, offlineSum_eq]
    refine congrArg List.sum (List.map_congr_left fun y hy => ?_)
    split <;> rfl
  · split <;> exact hc y hy

/-- A refund of a whole WAITING entry, or of part of it (R101). -/
theorem areaLaw_refund (h : areaLaw a) (hx : x ∈ a.entries) {amount : Nat} (ha : amount ≤ x.amount) :
    areaLaw (refundArea a x amount) := by
  have hf := filter_tag h hx
  have h' := h
  obtain ⟨-, -, h1, he, hc⟩ := h'
  by_cases hw : x.amount = amount
  · rw [refundArea, if_pos hw]
    refine areaLaw_filter h _ ?_
    simp only [bne, Bool.not_not, hf, List.map_cons, List.map_nil, List.sum_cons, List.sum_nil, Nat.add_zero, ← hw]
    rfl
  · rw [refundArea, if_neg hw]
    refine areaLaw_map h (fun y => if y.tag == x.tag then { y with amount := y.amount - amount } else y)
      (fun y => ?_) ?_ ?_ fun y hy => ?_
    · split <;> rfl
    · rw [List.filter_map, List.length_map]
      refine (congrArg List.length (List.filter_congr fun y _ => ?_)).trans_le h1
      show (if y.tag == x.tag then { y with amount := y.amount - amount } else y : DeferredEntry).sent = y.sent
      split <;> rfl
    · have hs := sum_map_filter exposed (fun y => y.tag == x.tag) a.entries
      have hs' := sum_map_filter
        (fun y => exposed (if y.tag == x.tag then { y with amount := y.amount - amount } else y))
        (fun y => y.tag == x.tag) a.entries
      have hrest : ((a.entries.filter fun y => !(y.tag == x.tag)).map fun y =>
            exposed (if y.tag == x.tag then { y with amount := y.amount - amount } else y)) =
          (a.entries.filter fun y => !(y.tag == x.tag)).map exposed := by
        refine List.map_congr_left fun y hy => ?_
        have := (List.mem_filter.1 hy).2
        rw [if_neg (by simpa using this)]
      rw [hf] at hs hs'
      rw [hrest] at hs'
      rw [he, offlineSum_eq, hs, hs']
      simp only [List.map_cons, List.map_nil, List.sum_cons, List.sum_nil, beq_self_eq_true, if_true, exposed]
      split <;> omega
    · split <;> exact hc y hy

end Area
end Sys2Proof.Machine

/-! ## The writes, and what they keep of the two laws -/
namespace Sys2Proof.Machine
open Safety

theorem Follows.refl (sl : Slot) : Follows sl sl := ⟨rfl, id, id⟩

/-- A slot that is not settled may become any slot of its tag that is complete in HELD. -/
theorem Follows.of_not_settled {sl sl' : Slot} (hn : ¬ Settled sl) (ht : sl'.tag = sl.tag) (hh : HeldComplete sl') :
    Follows sl sl' := ⟨ht, fun _ => hh, fun h => absurd h hn⟩

theorem not_settled_of_state {sl : Slot} (h : sl.state ≠ .notifying) : ¬ Settled sl := fun hs => h hs.1

/-- A slot whose pending step makes a deferred entry is not settled. -/
theorem not_settled_of_pending {sl : Slot} {w : SlotStep} (hp : sl.pending = some w)
    (hw : ∀ p m d n, w ≠ .file p m d n) : ¬ Settled sl := by
  rintro ⟨-, hn | ⟨p, m, d, n, hf⟩⟩
  · rw [hp] at hn
    cases hn
  · exact hw p m d n (Option.some.inj (hp.symm.trans hf))

theorem heldComplete_of_state {sl : Slot} (h : sl.state ≠ .held) : HeldComplete sl := fun hs => absurd hs h

/-- Every slot may end (R84). -/
theorem follows_notifying (sl : Slot) : Follows sl (notifying sl) :=
  ⟨rfl, fun _ => heldComplete_of_state SlotState.noConfusion, fun _ => ⟨rfl, .inl rfl⟩⟩

namespace SlotView

def putSlot (n : Nat) (sl : Slot) (v : SlotView) : SlotView := { v with slots := Table.put v.slots n sl }
def freeSlot (n : Nat) (v : SlotView) : SlotView := { v with slots := Table.drop v.slots n }
def putHold (i : Nat) (x : HoldEntry) (v : SlotView) : SlotView := { v with holds := Table.set blankHold v.holds i x }
def record (as : List DeferredArea) (v : SlotView) : SlotView := { v with queued := v.queued ++ as }
def putArea (a : DeferredArea) (w : Option DqStep) (v : SlotView) : SlotView := { v with area := a, step := w }

@[simp] theorem record_nil (v : SlotView) : v.record [] = v := by simp [record]

section Rules
variable {e : Prop} {v : SlotView} {n : Nat} {sl sl' : Slot}

/-- A table whose every reading follows one that was there before keeps both laws. -/
theorem Lawful.slots_of_follows (h : v.Lawful e) {t : Table Slot} (hr : Table.rises t = true)
    (hf : ∀ m x, Table.find t m = some x → ∃ y, Table.find v.slots m = some y ∧ Follows y x) :
    ({ v with slots := t } : SlotView).Lawful e := by
  refine ⟨⟨hr, fun m x hx => ?_⟩, fun he => ?_⟩
  · obtain ⟨y, hy, hyx⟩ := hf m x hx
    exact ⟨(h.slots.each m y hy).1, hyx.held (h.slots.each m y hy).2⟩
  obtain ⟨tags, holds, bound, area, stored, queued, settled, step, convert⟩ := h.entries he
  refine ⟨?_, holds, bound, area, stored, queued, ?_, step, convert⟩
  · intro m k a b ha hb hab
    obtain ⟨a', ha', hfa⟩ := hf m a ha
    obtain ⟨b', hb', hfb⟩ := hf k b hb
    exact tags m k a' b' ha' hb' (hfa.tag.symm.trans (hab.trans hfb.tag))
  · intro m x hx hex
    obtain ⟨y, hy, hyx⟩ := hf m x hx
    exact hyx.settled (settled m y hy (by rw [← hyx.tag]; exact hex))

/-- A slot in use changes. -/
theorem Lawful.changeSlot (h : v.Lawful e) (hs : Table.find v.slots n = some sl) (hf : Follows sl sl') :
    (v.putSlot n sl').Lawful e := by
  refine h.slots_of_follows (Table.rises_put _ _ h.slots.rises) fun m x hx => ?_
  by_cases hm : m = n
  · subst hm
    rw [Table.find_put_self] at hx
    cases hx
    exact ⟨sl, hs, hf⟩
  · rw [Table.find_put_of_ne _ _ _ _ hm] at hx
    exact ⟨x, hx, .refl x⟩

/-- A slot becomes FREE (R84). -/
theorem Lawful.freeSlot (n : Nat) (h : v.Lawful e) : (v.freeSlot n).Lawful e := by
  refine h.slots_of_follows (Table.rises_drop _ h.slots.rises) fun m x hx => ?_
  by_cases hm : m = n
  · subst hm
    rw [Table.find_drop_self _ _ h.slots.rises] at hx
    cases hx
  · rw [Table.find_drop_of_ne _ _ _ h.slots.rises hm] at hx
    exact ⟨x, hx, .refl x⟩

/-- A slot opens with a tag that is new (R65, R68). -/
theorem Lawful.openSlot (h : v.Lawful e) (hn : n < 32) (hc : HeldComplete sl)
    (hs : e → ∀ m x, Table.find v.slots m = some x → x.tag ≠ sl.tag)
    (hf : e → ∀ x ∈ v.area.entries, x.tag ≠ sl.tag) :
    (v.putSlot n sl).Lawful e := by
  have hput : ∀ m x, Table.find (v.putSlot n sl).slots m = some x →
      m = n ∧ x = sl ∨ Table.find v.slots m = some x := by
    intro m x hx
    by_cases hm : m = n
    · subst hm
      rw [putSlot, Table.find_put_self] at hx
      exact .inl ⟨rfl, (Option.some.inj hx).symm⟩
    · rw [putSlot, Table.find_put_of_ne _ _ _ _ hm] at hx
      exact .inr hx
  refine ⟨⟨Table.rises_put _ _ h.slots.rises, fun m x hx => ?_⟩, fun he => ?_⟩
  · rcases hput m x hx with ⟨rfl, rfl⟩ | hx
    · exact ⟨hn, hc⟩
    · exact h.slots.each m x hx
  obtain ⟨tags, holds, bound, area, stored, queued, settled, step, convert⟩ := h.entries he
  refine ⟨?_, holds, bound, area, stored, queued, ?_, step, convert⟩
  · intro m k a b ha' hb' hab
    rcases hput m a ha' with ⟨rfl, rfl⟩ | ha
    · rcases hput k b hb' with ⟨rfl, -⟩ | hb
      · rfl
      · exact absurd hab.symm (hs he k b hb)
    · rcases hput k b hb' with ⟨rfl, rfl⟩ | hb
      · exact absurd hab (hs he m a ha)
      · exact tags m k a b ha hb hab
  · rintro m x hx ⟨y, hy, hyx⟩
    rcases hput m x hx with ⟨rfl, rfl⟩ | hx
    · exact absurd hyx (hf he y hy)
    · exact settled m x hx ⟨y, hy, hyx⟩

/-- A hold table entry is written (R42). -/
theorem Lawful.putHold (h : v.Lawful e) {i : Nat} (x : HoldEntry) (hi : e → i < 256) : (v.putHold i x).Lawful e := by
  refine ⟨⟨h.slots.rises, h.slots.each⟩, fun he => ?_⟩
  obtain ⟨tags, holds, hb, area, stored, queued, settled, step, convert⟩ := h.entries he
  refine ⟨tags, Table.rises_set _ _ _ holds, fun y hy => ?_, area, stored, queued, settled, step, convert⟩
  have hall : (Table.set blankHold v.holds i x).all (fun y => decide (y.1 < 256)) = true := by
    have ha : v.holds.all (fun y => decide (y.1 < 256)) = true := by simpa using fun a b hab => hb (a, b) hab
    unfold Table.set
    split
    · exact Table.all_drop _ _ _ ha
    · exact Table.all_put _ _ _ _ ha (by simpa using hi he)
  simpa using List.all_eq_true.1 hall y hy

/-- A record is made (R124). -/
theorem Lawful.record (h : v.Lawful e) {as : List DeferredArea} (ha : e → ∀ a ∈ as, areaLaw a) :
    (v.record as).Lawful e := by
  refine ⟨⟨h.slots.rises, h.slots.each⟩, fun he => ?_⟩
  obtain ⟨tags, holds, bound, area, stored, queued, settled, step, convert⟩ := h.entries he
  refine ⟨tags, holds, bound, area, stored, fun a hm => ?_, settled, step, convert⟩
  exact (List.mem_append.1 hm).elim (queued a) (ha he a)

/-- The DEFERRED area changes, its tags among those it had, and the step about its SENT entry (R94 to R101). -/
theorem Lawful.putArea (h : v.Lawful e) {a : DeferredArea} {w : Option DqStep} (ha : e → areaLaw a)
    (ht : e → ∀ x ∈ a.entries, ∃ y ∈ v.area.entries, y.tag = x.tag)
    (hs : e → w ≠ none → ∃ x ∈ a.entries, x.sent = true)
    (hc : e → w = some .convert → ∀ x ∈ a.entries, x.sent = true → x.kind = .claimRetry) : (v.putArea a w).Lawful e := by
  refine ⟨⟨h.slots.rises, h.slots.each⟩, fun he => ?_⟩
  obtain ⟨tags, holds, bound, -, stored, queued, settled, -, -⟩ := h.entries he
  refine ⟨tags, holds, bound, ha he, stored, queued, ?_, hs he, hc he⟩
  rintro m x hx ⟨y, hy, hyx⟩
  obtain ⟨z, hz, hzy⟩ := ht he y hy
  exact settled m x hx ⟨z, hz, hzy.trans hyx⟩

/-- A slot that is not settled ends with its deferred entry: the entry joins the area (R73, R76, R88, R89). -/
theorem Lawful.join (h : v.Lawful e) {x : DeferredEntry} (hs : Table.find v.slots n = some sl) (hn : ¬ Settled sl)
    (hx : x.tag = sl.tag) (hl : v.area.entries.length < 64) (hw : x.sent = false)
    (hk : x.kind = .claimRetry → x.origin = .none) :
    ((v.putSlot n (notifying sl)).putArea
      ⟨v.area.entries ++ [x], v.area.exposure + if x.origin = .offline then x.amount else 0⟩ v.step).Lawful e := by
  have h1 := h.changeSlot hs (follows_notifying sl)
  refine ⟨⟨h1.slots.rises, h1.slots.each⟩, fun he => ?_⟩
  have hE := h.entries he
  obtain ⟨tags, holds, bound, -, stored, queued, settled, -, -⟩ := h1.entries he
  have hfresh : ∀ y ∈ v.area.entries, y.tag ≠ x.tag := fun y hy hyx => hn (hE.settled n sl hs ⟨y, hy, hyx.trans hx⟩)
  refine ⟨tags, holds, bound, areaLaw_append hE.area hl hfresh hw hk, stored, queued, ?_, ?_, ?_⟩
  · rintro m y hy ⟨z, hz, hzy⟩
    rcases List.mem_append.1 hz with hz | hz
    · exact settled m y hy ⟨z, hz, hzy⟩
    · rw [List.mem_singleton.1 hz, hx] at hzy
      have hself : Table.find (Table.put v.slots n (notifying sl)) n = some (notifying sl) := Table.find_put_self ..
      have hm := tags m n y (notifying sl) hy hself hzy.symm
      subst hm
      cases hself.symm.trans hy
      exact ⟨rfl, .inl rfl⟩
  · intro hp
    obtain ⟨y, hy, hys⟩ := hE.step hp
    exact ⟨y, List.mem_append_left _ hy, hys⟩
  · intro hp y hy hys
    rcases List.mem_append.1 hy with hy | hy
    · exact hE.convert hp y hy hys
    · rw [List.mem_singleton.1 hy, hw] at hys
      cases hys

end Rules
end SlotView
end Sys2Proof.Machine

/-! ## What the operations do to the slot view -/
namespace Sys2Proof.Machine
open Safety

section View
variable (s : State)

/-! ### Single writes -/

@[simp] theorem slotView_setEvent (x : Event) : slotView (setEvent x s) = slotView s := rfl
@[simp] theorem slotView_complete (r : Result) (w : Reason) (g : Tag) (d : List Byte) :
    slotView (complete r w g d s) = slotView s := rfl
@[simp] theorem slotView_accept (g : Tag) (d : List Byte) : slotView (accept g d s) = slotView s := rfl
@[simp] theorem slotView_refuse (w : Reason) : slotView (refuse w s) = slotView s := rfl
@[simp] theorem slotView_refuseNamed (w : Reason) (g : Tag) : slotView (refuseNamed w g s) = slotView s := rfl
@[simp] theorem slotView_handTo (w : Hand) : slotView (handTo w s) = slotView s := rfl
@[simp] theorem slotView_takePlaces (n : Nat) : slotView (takePlaces n s) = slotView s := rfl
@[simp] theorem slotView_freeTaken (n : Nat) : slotView (freeTaken n s) = slotView s := rfl
@[simp] theorem slotView_enterNotice (n : Notice) : slotView (enterNotice n s) = slotView s := rfl
@[simp] theorem slotView_enterPlaced (n : Notice) : slotView (enterPlaced n s) = slotView s := rfl
@[simp] theorem slotView_fallDue (n : Notice) (o : Option Nat) (b : Bool) : slotView (fallDue n o b s) = slotView s := rfl
@[simp] theorem slotView_reserve (c : TxClass) : slotView (reserve c s) = slotView s := rfl
@[simp] theorem slotView_unreserve (c : TxClass) : slotView (unreserve c s) = slotView s := rfl
@[simp] theorem slotView_enqueue (c : TxClass) (d : Station) (b : Body) : slotView (enqueue c d b s) = slotView s := rfl
@[simp] theorem slotView_enterReserved (c : TxClass) (d : Station) (b : Body) :
    slotView (enterReserved c d b s) = slotView s := rfl
@[simp] theorem slotView_withdraw (c : TxClass) : slotView (withdraw c s) = slotView s := rfl
@[simp] theorem slotView_answerNow (d : Station) (b : Body) : slotView (answerNow d b s) = slotView s := rfl
@[simp] theorem slotView_settleWaiting : slotView (settleWaiting s) = slotView s := rfl
@[simp] theorem slotView_leaveWaiting (w : WaitStep) : slotView (leaveWaiting w s) = slotView s := rfl
@[simp] theorem slotView_popLine : slotView (popLine s) = slotView s := rfl
@[simp] theorem slotView_popLocal : slotView (popLocal s) = slotView s := rfl
@[simp] theorem slotView_takeCommand (code seq : Byte) : slotView (takeCommand code seq s) = slotView s := rfl
@[simp] theorem slotView_putCard (k : Nat) (r : CardRecord) : slotView (putCard k r s) = slotView s := rfl
@[simp] theorem slotView_applyCapture (src : Station) (g : Tag) (kind : TagKind) (k amount : Nat) :
    slotView (applyCapture src g kind k amount s) = slotView s := rfl
@[simp] theorem slotView_applyLoad (src : Station) (g : Tag) (k amount : Nat) :
    slotView (applyLoad src g k amount s) = slotView s := rfl
@[simp] theorem slotView_applyReturn (src : Station) (g o : Tag) (k amount : Nat) :
    slotView (applyReturn src g o k amount s) = slotView s := rfl
@[simp] theorem slotView_putTagSeq (g : Tag) : slotView (putTagSeq g s) = slotView s := rfl
@[simp] theorem slotView_putBackoff (x : Station) (b : BackoffLine) : slotView (putBackoff x b s) = slotView s := rfl
@[simp] theorem slotView_putMark (st : Station) (m : PairMark) : slotView (putMark st m s) = slotView s := rfl
@[simp] theorem slotView_putReceiver (r : Receiver) : slotView (putReceiver r s) = slotView s := rfl
@[simp] theorem slotView_stopSending : slotView (stopSending s) = slotView s := rfl
@[simp] theorem slotView_mapHead (f : TxFrame → TxFrame) (c : TxClass) : slotView (mapHead f c s) = slotView s := rfl
@[simp] theorem slotView_frameEnded : slotView (frameEnded s) = slotView s := rfl
@[simp] theorem slotView_beginComputation : slotView (beginComputation s) = slotView s := rfl
@[simp] theorem slotView_startSending : slotView (startSending s) = slotView s := rfl
@[simp] theorem slotView_dropGranted : slotView (dropGranted s) = slotView s := rfl
@[simp] theorem slotView_faultTu : slotView (faultTu s) = slotView s := rfl

@[simp] theorem slotView_putSlot (n : Nat) (sl : Slot) : slotView (putSlot n sl s) = (slotView s).putSlot n sl := rfl
@[simp] theorem slotView_freeSlot (n : Nat) : slotView (freeSlot n s) = (slotView s).freeSlot n := rfl
@[simp] theorem slotView_endSlot (n : Nat) (sl : Slot) (m : Notice) :
    slotView (endSlot n sl m s) = (slotView s).putSlot n (notifying sl) := rfl
@[simp] theorem slotView_waitStep (n : Nat) (sl : Slot) (w : SlotStep) :
    slotView (waitStep n sl w s) = (slotView s).putSlot n { sl with reply := none, pending := some w } := rfl
@[simp] theorem slotView_makeHold (i : Nat) (x : LiveHold) :
    slotView (makeHold i x s) = (slotView s).putHold i ⟨(holdAt s i).gen + 1, some x⟩ := rfl
@[simp] theorem slotView_freeEntry (i : Nat) (x : LiveHold) :
    slotView (freeEntry i x s) = (slotView s).putHold i ⟨(holdAt s i).gen, none⟩ := rfl
@[simp] theorem slotView_putDeferred (a : DeferredArea) :
    slotView (putDeferred a s) = (slotView s).putArea a s.dq.pending := rfl

/-! ### Records (R124, R127) -/

theorem queuedAreas_append (q : List PostingRecord) (r : PostingRecord) :
    queuedAreas (q ++ [r]) = queuedAreas q ++ r.updates.filterMap deferredOf := by
  simp [queuedAreas, List.flatMap_append]

/-- The areas a queue carries are those of its updates. -/
theorem queuedAreas_congr {q q' : List PostingRecord} (h : q'.map (·.updates) = q.map (·.updates)) :
    queuedAreas q' = queuedAreas q := by
  have hq : ∀ q : List PostingRecord, queuedAreas q = (q.map (·.updates)).flatMap fun us => us.filterMap deferredOf := by
    intro q
    simp only [queuedAreas, List.flatMap_map]
  rw [hq, hq, h]

/-- A queue with the same area updates. -/
theorem slotView_of_queue {t : State} (h : t.ps.queue.map (·.updates) = s.ps.queue.map (·.updates))
    (hs : { slotView t with queued := queuedAreas s.ps.queue } = slotView s) : slotView t = slotView s := by
  rw [← hs, ← queuedAreas_congr h]
  rfl

@[simp] theorem slotView_makeRecord (us : List AreaUpdate) (ds : List Dependent) :
    slotView (makeRecord us ds s) = (slotView s).record (us.filterMap deferredOf) := by
  show ({ slotView s with queued := queuedAreas (s.ps.queue ++ [⟨us, ds⟩]) } : SlotView) = _
  rw [queuedAreas_append]
  rfl

/-- A record without the DEFERRED area. -/
theorem slotView_makeRecord_of_nil {us : List AreaUpdate} (h : us.filterMap deferredOf = []) (ds : List Dependent) :
    slotView (makeRecord us ds s) = slotView s := by rw [slotView_makeRecord, h, SlotView.record_nil]

@[simp] theorem slotView_recordWithAnswer (us : List AreaUpdate) (d : Station) (b : Body) :
    slotView (recordWithAnswer us d b s) = (slotView s).record (us.filterMap deferredOf) := by simp [recordWithAnswer]

@[simp] theorem slotView_answerAfterRecords (d : Station) (b : Body) :
    slotView (answerAfterRecords d b s) = slotView s := by
  unfold answerAfterRecords
  split
  · rfl
  · exact slotView_of_queue s (attachYoungest_updates _ _) rfl

@[simp] theorem slotView_withdrawRequest (n : Nat) (g : Tag) : slotView (withdrawRequest n g s) = slotView s := by
  unfold withdrawRequest
  split
  · exact slotView_of_queue s (by simp) rfl
  · rfl

@[simp] theorem slotView_secondNotice (x : LiveHold) (n : Notice) (asked : Nat) :
    slotView (secondNotice x n asked s) = slotView s := by
  unfold secondNotice
  split
  · exact slotView_of_queue s (attachAfterGranted_updates _ _ _) rfl
  · rfl

/-! ### Filings, and the settlement round (R82, R83, R142 to R154) -/

@[simp] theorem slotView_restartComputation : slotView (restartComputation s) = slotView s := by
  unfold restartComputation
  split <;> rfl

@[simp] theorem slotView_fileActor (home : Station) (p : FilePos) (amount : Nat) (day : Day) :
    slotView (fileActor home p amount day s).1 = slotView s := by
  rw [fileActor_only]
  rfl

/-- A filing's updates carry no DEFERRED area. -/
@[simp] theorem fileActor_deferredOf (home : Station) (p : FilePos) (amount : Nat) (day : Day) :
    (fileActor home p amount day s).2.filterMap deferredOf = [] := by
  unfold fileActor
  cases filePlace s home day <;> simp only [reduceCtorEq, if_true, if_false]
  · rfl
  · rfl
  · split <;> rfl

@[simp] theorem slotView_comparePeer (st : Station) : slotView (comparePeer st s) = slotView s := by
  unfold comparePeer
  split <;> rfl

@[simp] theorem slotView_tallyTo (st : Station) (rest : List Station) : slotView (tallyTo st rest s) = slotView s := by
  simp only [tallyTo]
  split
  · rfl
  · exact (slotView_makeRecord_of_nil _ rfl _).trans (slotView_comparePeer _ st)

@[simp] theorem slotView_receive (i : Inbound) : slotView (receive i s) = slotView s := by
  simp only [receive]
  split
  · exact (slotView_makeRecord_of_nil _ rfl _).trans ((slotView_restartComputation _).trans (slotView_comparePeer _ i.src))
  · exact (slotView_makeRecord_of_nil _ rfl _).trans (slotView_restartComputation _)

@[simp] theorem slotView_openRound (o : Opening) : slotView (openRound o s) = slotView s := by
  simp only [openRound, slotView_makeRecord]
  exact SlotView.record_nil _

@[simp] theorem slotView_makePayout (p : PayoutRecord PairState) : slotView (makePayout p s) = slotView s := by
  simp only [makePayout, slotView_makeRecord]
  exact SlotView.record_nil _

/-- A fold of steps that leave the slot view leaves it. -/
theorem slotView_foldl {α : Type} (f : State → α → State) (h : ∀ s a, slotView (f s a) = slotView s) (l : List α)
    (s : State) : slotView (l.foldl f s) = slotView s := by
  induction l generalizing s with
  | nil => rfl
  | cons a l ih => rw [List.foldl_cons, ih, h]

@[simp] theorem slotView_cutShort : slotView (cutShort s) = slotView s := by
  have hp (b : StationSet) (t : State) (st : Station) : slotView (cutShortPeer b t st) = slotView t := by
    unfold cutShortPeer
    split
    · rfl
    · exact slotView_comparePeer ..
  simp only [cutShort, slotView_makeRecord, slotView_beginComputation, slotView_foldl _ (hp _)]
  exact SlotView.record_nil _

@[simp] theorem slotView_takeSettle (d : Day) : slotView (takeSettle d s) = slotView s := by
  unfold takeSettle
  (repeat' split) <;> rfl

@[simp] theorem slotView_takeRecount : slotView (takeRecount s) = slotView s := by
  unfold takeRecount
  (repeat' split) <;> rfl

@[simp] theorem slotView_tallyOpenArrives (src : Station) (d : Day) : slotView (tallyOpenArrives src d s) = slotView s := by
  unfold tallyOpenArrives
  (repeat' split) <;> rfl

@[simp] theorem slotView_tallyArrives (src : Station) (d : Day) (b : PairLine) :
    slotView (tallyArrives src d b s) = slotView s := by
  unfold tallyArrives
  split <;> rfl

/-! ### Configuration and routing (R137, R170) -/

@[simp] theorem slotView_makeConfigure (c : ConfigRecord) (m : BitVec 16) (j : StationSet) :
    slotView (makeConfigure c m j s) = slotView s := by
  simp only [makeConfigure, slotView_makeRecord]
  (repeat' split) <;> exact SlotView.record_nil _

@[simp] theorem slotView_tryConfigure : slotView (tryConfigure s) = slotView s := by
  unfold tryConfigure
  (repeat' split) <;> simp

@[simp] theorem slotView_takeConfigure (p : ConfigParams) : slotView (takeConfigure p s) = slotView s := by
  unfold takeConfigure
  split <;> simp

@[simp] theorem slotView_joined : slotView (joined s) = slotView s := by
  unfold joined resumeRound
  split <;> rfl

@[simp] theorem slotView_routeHomeOp (card : CardNo) (op : HomeOp) : slotView (routeHomeOp card op s) = slotView s := by
  unfold routeHomeOp
  split <;> rfl

@[simp] theorem slotView_routeCard (own : LocalReq) (r : OpenReq) : slotView (routeCard own r s) = slotView s := by
  unfold routeCard routeForeign
  (repeat' split) <;> rfl

/-! ### The Card Table Unit (R37 to R60) -/

@[simp] theorem slotView_announce (src : Station) (g : Tag) : slotView (announce src g s) = slotView s := by
  unfold announce
  split <;> rfl

/-- Updates of cards, of the log, of the live lines and of the tag sequence carry no DEFERRED area. -/
@[simp] theorem filterMap_cardUpdate (k : Nat) (us : List AreaUpdate) :
    (cardUpdate s k :: us).filterMap deferredOf = us.filterMap deferredOf := rfl
@[simp] theorem filterMap_capUpdate (us : List AreaUpdate) :
    (capUpdate s :: us).filterMap deferredOf = us.filterMap deferredOf := rfl
@[simp] theorem filterMap_liveUpdate (st : Station) (us : List AreaUpdate) :
    (liveUpdate s st :: us).filterMap deferredOf = us.filterMap deferredOf := rfl
@[simp] theorem filterMap_tagSeq (g : Tag) (us : List AreaUpdate) :
    (AreaUpdate.tagSeq g :: us).filterMap deferredOf = us.filterMap deferredOf := rfl
@[simp] theorem filterMap_deferred (a : DeferredArea) (us : List AreaUpdate) :
    (AreaUpdate.deferred a :: us).filterMap deferredOf = a :: us.filterMap deferredOf := rfl

@[simp] theorem slotView_acceptLocal (us : List AreaUpdate) (n : Notice) (asked : Nat) :
    slotView (acceptLocal us n asked s) = (slotView s).record (us.filterMap deferredOf) := by simp [acceptLocal]

@[simp] theorem slotView_applyPost (src : Station) (g : Tag) (k amount taken : Nat) (r : Reason) :
    slotView (applyPost src g k amount taken r s) = slotView s := by
  simp only [applyPost]
  split <;> simp

@[simp] theorem slotView_decidePost (src : Station) (g : Tag) (card : CardNo) (check : Check) (amount : Nat) :
    slotView (decidePost src g card check amount s) = slotView s := by
  simp only [decidePost]
  (repeat' split) <;> simp

@[simp] theorem slotView_decideLoad (src : Station) (g : Tag) (card : CardNo) (check : Check) (amount : Nat) :
    slotView (decideLoad src g card check amount s) = slotView s := by
  simp only [decideLoad]
  (repeat' split) <;> simp

@[simp] theorem slotView_decideReturn (src : Station) (g : Tag) (card : CardNo) (o : Tag) (amount : Nat) :
    slotView (decideReturn src g card o amount s) = slotView s := by
  simp only [decideReturn]
  (repeat' split) <;> simp

@[simp] theorem slotView_decideInquire (src : Station) (g : Tag) (card : CardNo) (check : Check) (asked : Option Tag) :
    slotView (decideInquire src g card check asked s) = slotView s := by
  unfold decideInquire
  (repeat' split) <;> simp

@[simp] theorem slotView_takeHomeOp (op : HomeOp) : slotView (takeHomeOp op s) = slotView s := by
  unfold takeHomeOp
  (repeat' split) <;> simp

@[simp] theorem slotView_takeLocalLoad (card : CardNo) (check : Check) (amount : Nat) :
    slotView (takeLocalLoad card check amount s) = slotView s := by
  simp only [takeLocalLoad]
  (repeat' split) <;> simp

@[simp] theorem slotView_takeLocalReturn (card : CardNo) (o : Tag) (amount : Nat) :
    slotView (takeLocalReturn card o amount s) = slotView s := by
  simp only [takeLocalReturn]
  (repeat' split) <;> simp

@[simp] theorem slotView_takeLocalInquire (card : CardNo) (check : Check) (asked : Option Tag) :
    slotView (takeLocalInquire card check asked s) = slotView s := by
  simp only [takeLocalInquire]
  (repeat' split) <;> simp

/-! ### Slots (R68 to R84) -/

@[simp] theorem slotView_sendDrop (sl : Slot) : slotView (sendDrop sl s) = slotView s := by
  unfold sendDrop
  (repeat' split) <;> rfl

@[simp] theorem slotView_releaseHeld (n : Nat) (sl : Slot) (o : NoticeOutcome) :
    slotView (releaseHeld n sl o s) = (slotView s).putSlot n (notifying sl) := by simp [releaseHeld]

@[simp] theorem slotView_joinEntry (n : Nat) (sl : Slot) (x : DeferredEntry) (m : Notice) :
    slotView (joinEntry n sl x m s) = (((slotView s).putSlot n (notifying sl)).putArea
      ⟨s.dq.area.entries ++ [x], s.dq.area.exposure + if x.origin = .offline then x.amount else 0⟩ s.dq.pending).record
      [⟨s.dq.area.entries ++ [x], s.dq.area.exposure + if x.origin = .offline then x.amount else 0⟩] := by
  simp [joinEntry, deferredOf]

end View
end Sys2Proof.Machine

/-! ## What the operations of the blocks keep of the two laws -/
namespace Sys2Proof.Machine
open Safety

theorem slotAt_of_slotView {s t : State} (h : slotView t = slotView s) (n : Nat) : slotAt t n = slotAt s n :=
  congrArg (fun v : SlotView => Table.find v.slots n) h

section Operations
variable {e : Prop} {s : State} {n : Nat} {sl : Slot}

theorem lawful_of_eq {t : State} (h : (slotView s).Lawful e) (ht : slotView t = slotView s) : (slotView t).Lawful e :=
  ht ▸ h

/-- A fold of steps that keep the laws keeps them. -/
theorem lawful_foldl {α : Type} {f : State → α → State} (l : List α) (h : (slotView s).Lawful e)
    (hf : ∀ t, ∀ a ∈ l, (slotView t).Lawful e → (slotView (f t a)).Lawful e) : (slotView (l.foldl f s)).Lawful e :=
  List.foldlRecOn (motive := fun t => (slotView t).Lawful e) l f h fun t ht a ha => hf t a ha ht

/-- The area in memory goes into a record (R89). -/
theorem SlotView.Lawful.record_area {v : SlotView} (h : v.Lawful e) : (v.record [v.area]).Lawful e :=
  h.record fun he _ ha => List.mem_singleton.1 ha ▸ (h.entries he).area

/-- The tag given next is of no slot in use and of no deferred entry (R65). -/
theorem nextTag_new (h : (slotView s).Lawful e) (he : e) :
    (∀ m x, Table.find (slotView s).slots m = some x → x.tag ≠ nextTag s) ∧
      ∀ x ∈ s.dq.area.entries, x.tag ≠ nextTag s := by
  obtain ⟨hs, hl⟩ := (lawful_iff e s).1 h
  obtain ⟨-, hf⟩ := nextTag_fresh s hs (hl he)
  simp only [tagInUse, Bool.or_eq_false_iff, List.any_eq_false, beq_iff_eq] at hf
  obtain ⟨⟨hslot, -⟩, hentry⟩ := hf
  exact ⟨fun m x hx => hslot (m, x) (Table.mem_of_find hx), hentry⟩

/-! ### Outcomes and pending steps of a slot (R72 to R84) -/

/-- A slot that has not ended takes a pending step (R81). -/
theorem follows_waiting (hn : sl.state ≠ .notifying) (w : SlotStep) :
    Follows sl { sl with reply := none, pending := some w } :=
  ⟨rfl, id, fun h => absurd h (not_settled_of_state hn)⟩

theorem lawful_endSlot (h : (slotView s).Lawful e) (hs : slotAt s n = some sl) (m : Notice) :
    (slotView (endSlot n sl m s)).Lawful e := h.changeSlot hs (follows_notifying sl)

theorem lawful_waitStep (h : (slotView s).Lawful e) (hs : slotAt s n = some sl) (hn : sl.state ≠ .notifying)
    (w : SlotStep) : (slotView (waitStep n sl w s)).Lawful e := h.changeSlot hs (follows_waiting hn w)

theorem lawful_fileStep (h : (slotView s).Lawful e) (hs : slotAt s n = some sl) (p : FilePos) (k : Nat) (d : Option Day)
    (m : Notice) : (slotView (fileStep n sl p k d m s)).Lawful e :=
  h.changeSlot hs ⟨rfl, fun _ => heldComplete_of_state SlotState.noConfusion, fun _ => ⟨rfl, .inr ⟨p, k, d, m, rfl⟩⟩⟩

/-- A slot's reply timer and stall count change. -/
theorem lawful_putReply (h : (slotView s).Lawful e) (hs : slotAt s n = some sl) (r : Option Nat) (k : Nat) :
    (slotView (putSlot n { sl with reply := r, stalls := k } s)).Lawful e := h.changeSlot hs ⟨rfl, id, id⟩

theorem lawful_releaseHeld (h : (slotView s).Lawful e) (hs : slotAt s n = some sl) (o : NoticeOutcome) :
    (slotView (releaseHeld n sl o s)).Lawful e := by
  rw [slotView_releaseHeld]
  exact h.changeSlot hs (follows_notifying sl)

/-- A slot ends with its deferred entry, under its record (R73, R76). -/
theorem lawful_joinEntry (h : (slotView s).Lawful e) (hs : slotAt s n = some sl) (hn : ¬ Settled sl) {x : DeferredEntry}
    (hx : x.tag = sl.tag) (hl : s.dq.area.entries.length < 64) (hw : x.sent = false)
    (hk : x.kind = .claimRetry → x.origin = .none) (m : Notice) : (slotView (joinEntry n sl x m s)).Lawful e := by
  rw [slotView_joinEntry]
  exact (h.join hs hn hx hl hw hk).record_area

theorem offlineFails_none (h : offlineFails s sl = none) : s.dq.area.entries.length < 64 := by
  unfold offlineFails at h
  split_ifs at h with h1 h2 h3
  exact not_le.1 h3

/-- A pending step made keeps the laws: a deferred entry finds a place, and its slot ends (R73, R76, R82). -/
theorem lawful_performSlotStep (h : (slotView s).Lawful e) (hr : slotStepReady s n = true) :
    (slotView (performSlotStep n s)).Lawful e := by
  unfold performSlotStep
  rcases hs : slotAt s n with _ | sl
  · exact h
  rcases hp : sl.pending with _ | w
  · simpa only [hp] using h
  have hready : w = .deferLate ∨ w = .deferRetry → s.dq.area.entries.length < 64 := by
    have hpend := pendingOf_of_slotAt hs hp
    rintro (rfl | rfl) <;> rw [slotStepReady, hpend] at hr <;> exact of_decide_eq_true hr
  cases w <;> simp only [hp]
  case offline =>
    split
    · exact lawful_endSlot h hs _
    · next hf =>
      exact lawful_joinEntry h hs (not_settled_of_pending hp fun _ _ _ _ => SlotStep.noConfusion) rfl
        (offlineFails_none hf) rfl EntryKind.noConfusion _
  case deferLate =>
    exact lawful_joinEntry h hs (not_settled_of_pending hp fun _ _ _ _ => SlotStep.noConfusion) rfl
      (hready (.inl rfl)) rfl EntryKind.noConfusion _
  case deferRetry =>
    exact lawful_joinEntry h hs (not_settled_of_pending hp fun _ _ _ _ => SlotStep.noConfusion) rfl
      (hready (.inr rfl)) rfl (fun _ => rfl) _
  case file =>
    simp only [slotView_makeRecord, slotView_putSlot, slotView_fileActor, fileActor_deferredOf, SlotView.record_nil]
    exact h.changeSlot hs ⟨rfl, id, fun ⟨hst, _⟩ => ⟨hst, .inl rfl⟩⟩

theorem lawful_stepIfGranted (h : (slotView s).Lawful e) (n : Nat) : (slotView (stepIfGranted n s)).Lawful e := by
  unfold stepIfGranted
  split
  · next hg =>
    have hr := granted_ready ((isGranted_iff s _).1 hg)
    simp only [stepReady, Bool.and_eq_true] at hr
    obtain ⟨-, hr⟩ := hr
    exact lawful_performSlotStep (s := leaveWaiting (.slot n) s) h hr
  · exact h

theorem lawful_trySlot (h : (slotView s).Lawful e) (n : Nat) : (slotView (trySlot n s)).Lawful e :=
  lawful_stepIfGranted (s := settleWaiting s) h n

/-! ### No-answer events (R69, R72, R76 to R80) -/

theorem lawful_redeemUnanswered (h : (slotView s).Lawful e) (hs : slotAt s n = some sl) (hn : sl.state ≠ .notifying)
    (m : Notice) : (slotView (redeemUnanswered n sl m s)).Lawful e := by
  unfold redeemUnanswered
  split
  · exact lawful_waitStep h hs hn _
  · exact lawful_endSlot h hs _

theorem lawful_tagInquiry (h : (slotView s).Lawful e) (hs : slotAt s n = some sl) (hn : sl.state ≠ .notifying) :
    (slotView (tagInquiry n sl s)).Lawful e := by
  unfold tagInquiry
  split
  · exact h.changeSlot hs (.of_not_settled (not_settled_of_state hn) rfl (heldComplete_of_state SlotState.noConfusion))
  · exact lawful_endSlot h hs _

theorem lawful_noAnswer (h : (slotView s).Lawful e) (hs : slotAt s n = some sl) :
    (slotView (noAnswer n sl s)).Lawful e := by
  simp only [noAnswer]
  split
  · next hst _ => exact lawful_redeemUnanswered h hs (by simp [hst]) _
  · next hst _ => exact lawful_tagInquiry h hs (by simp [hst])
  · exact lawful_endSlot h hs _
  · exact lawful_endSlot h hs _
  · next hst => exact lawful_waitStep h hs (by simp [hst]) _
  · exact lawful_endSlot h hs _
  · exact lawful_putReply h hs none sl.stalls

theorem lawful_lineNoAnswer (h : (slotView s).Lawful e) (n : Nat) : (slotView (lineNoAnswer s n)).Lawful e := by
  unfold lineNoAnswer
  split
  · next sl hs =>
    split
    · have hw := slotView_withdrawRequest s n sl.tag
      exact lawful_trySlot (lawful_noAnswer (lawful_of_eq h hw) ((slotAt_of_slotView hw n).trans hs)) n
    · exact h
  · exact h

theorem lawful_lineFails (h : (slotView s).Lawful e) (l : LineState) : (slotView (lineFails l s)).Lawful e :=
  lawful_foldl (s := setEvent .line { s with lc := { s.lc with line := l } }) _ h fun _ n _ ht => lawful_lineNoAnswer ht n

/-! ### Answers (R70 to R80) -/

/-- A slot that takes an answer has not ended (R71). -/
theorem state_of_takesKind {b : Body} (h : takesKind sl b = true) : sl.state ≠ .notifying := by
  intro hn
  cases b <;> simp [takesKind, hn] at h

theorem lawful_slotHeld (h : (slotView s).Lawful e) (hs : slotAt s n = some sl) (hn : sl.state ≠ .notifying) (id : HoldId)
    (grant avail : Nat) (p : Bool) : (slotView (slotHeld n sl id grant avail p s)).Lawful e :=
  h.changeSlot hs (.of_not_settled (not_settled_of_state hn) rfl fun _ => ⟨rfl, rfl⟩)

theorem lawful_slotClaimNo (h : (slotView s).Lawful e) (hs : slotAt s n = some sl) (hn : sl.state ≠ .notifying)
    (r : Reason) : (slotView (slotClaimNo n sl r s)).Lawful e := by
  unfold slotClaimNo
  split
  · exact lawful_waitStep h hs hn _
  · exact lawful_waitStep h hs hn _
  · exact lawful_waitStep h hs hn _
  · have hd := slotView_sendDrop s sl
    exact lawful_endSlot (lawful_of_eq h hd) ((slotAt_of_slotView hd n).trans hs) _

theorem lawful_slotBalance (h : (slotView s).Lawful e) (hs : slotAt s n = some sl) (c : CardState) (bal avail : Nat)
    (q : TagResult) : (slotView (slotBalance n sl c bal avail q s)).Lawful e := by
  unfold slotBalance
  split
  · exact lawful_fileStep h hs ..
  · exact lawful_endSlot h hs _
  · exact lawful_endSlot h hs _

theorem lawful_slotAnswer (h : (slotView s).Lawful e) (hs : slotAt s n = some sl) (hn : sl.state ≠ .notifying) (b : Body) :
    (slotView (slotAnswer n sl b s)).Lawful e := by
  cases b with
  | stall => exact lawful_putReply h hs _ _
  | holdOk => exact lawful_slotHeld h hs hn ..
  | holdNo =>
    simp only [slotAnswer]
    split_ifs
    · exact lawful_redeemUnanswered h hs hn _
    · exact lawful_endSlot h hs _
    · exact lawful_endSlot h hs _
  | claimOk | loadOk | returnOk => exact lawful_fileStep h hs ..
  | claimNo => exact lawful_slotClaimNo h hs hn _
  | loadNo | returnNo => exact lawful_endSlot h hs _
  | balance => exact lawful_slotBalance h hs ..
  | inquireNo =>
    simp only [slotAnswer]
    split_ifs
    · exact lawful_endSlot h hs _
    · exact lawful_endSlot h hs _
  | _ => exact h

/-- A slot found in a rising table is the slot of its number. -/
theorem slotAt_of_find {p : Nat × Slot → Bool} (h : (slotView s).Lawful e) (hf : s.su.slots.find? p = some (n, sl)) :
    slotAt s n = some sl := Table.find_of_mem h.slots.rises (List.mem_of_find?_eq_some hf)

/-! ### Openings, CONFIRM, CANCEL, due notices, frames (R68, R74, R75, R84) -/

theorem lowest_lt {p : Nat → Bool} {m k i : Nat} (h : lowest p m k = some i) : i < k + m := by
  induction m generalizing k with
  | zero => cases h
  | succ m ih =>
    unfold lowest at h
    split at h
    · cases h; omega
    · have := ih h; omega

theorem lawful_takeOpening (h : (slotView s).Lawful e) (r : OpenReq) : (slotView (takeOpening r s)).Lawful e := by
  simp only [takeOpening]
  split
  · exact h
  · next n hn =>
    have hlt : n < 32 := by simpa [Config.slots] using lowest_lt hn
    have hopen : ((slotView s).putSlot n (newSlot (nextTag s) r)).Lawful e :=
      h.openSlot hlt (heldComplete_of_state SlotState.noConfusion) (fun he => (nextTag_new h he).1)
        (fun he => (nextTag_new h he).2)
    split_ifs
    · exact h
    · have hself : slotAt (makeRecord [.tagSeq (nextTag s)] [] (accept (nextTag s) [] (putTagSeq (nextTag s)
          (putSlot n (newSlot (nextTag s) r) s)))) n = some (newSlot (nextTag s) r) := Table.find_put_self ..
      exact lawful_trySlot (lawful_noAnswer (by simpa using hopen) hself) n
    · simpa using hopen

theorem lawful_enterDue (h : (slotView s).Lawful e) (d : DueNotice) : (slotView (enterDue d s)).Lawful e := by
  simp only [enterDue]
  split
  · split
    · exact h.freeSlot _
    · exact h
  · exact h

theorem lawful_enterDues (h : (slotView s).Lawful e) (m : Nat) : (slotView (enterDues m s)).Lawful e := by
  induction m generalizing s with
  | zero => exact h
  | succ m ih =>
    unfold enterDues
    split
    · exact ih (lawful_enterDue h _)
    · exact h

theorem lawful_takeNotice (h : (slotView s).Lawful e) : (slotView (takeNotice s)).Lawful e := by
  simp only [takeNotice]
  split
  · exact lawful_enterDues (s := accept 0 _ { s with tp := { s.tp with notices := _ } }) h _
  · exact h

theorem lawful_confirmSlot (h : (slotView s).Lawful e) (g : Tag) (k : Nat) : (slotView (confirmSlot g k s)).Lawful e := by
  simp only [confirmSlot]
  split
  · exact h
  · next n sl hf =>
    have hst : sl.state = .held := by
      have := List.find?_some hf
      simp only [Bool.and_eq_true, decide_eq_true_eq] at this
      exact this.2
    split_ifs
    · exact h
    · exact h
    · exact h.changeSlot (slotAt_of_find h hf) (.of_not_settled (not_settled_of_state (by simp [hst])) rfl
        (heldComplete_of_state SlotState.noConfusion))

theorem lawful_cancelSlot (h : (slotView s).Lawful e) (g : Tag) : (slotView (cancelSlot g s)).Lawful e := by
  simp only [cancelSlot]
  split
  · exact h
  · next n sl hf => exact lawful_releaseHeld h (slotAt_of_find h hf) _

theorem lawful_routeConfirm (h : (slotView s).Lawful e) (g : Tag) (k : Nat) :
    (slotView (routeConfirm g k s)).Lawful e := by
  unfold routeConfirm
  split
  · split_ifs <;> exact h
  · exact lawful_confirmSlot h g k

theorem lawful_routeCancel (h : (slotView s).Lawful e) (g : Tag) : (slotView (routeCancel g s)).Lawful e := by
  unfold routeCancel
  split
  · exact h
  · exact lawful_cancelSlot h g

theorem lawful_releaseSlotFrame (h : (slotView s).Lawful e) (n : Nat) (g : Tag) (d : Station) (b : Body) :
    (slotView (releaseSlotFrame n g d b s)).Lawful e := by
  simp only [releaseSlotFrame]
  split
  · next sl hs =>
    split_ifs
    · exact lawful_putReply (s := enterReserved .c2 d b s) h hs _ _
    · exact h
  · exact h

theorem lawful_faultSlot (h : (slotView s).Lawful e) (n : Nat) : (slotView (faultSlot s n)).Lawful e := by
  unfold faultSlot
  split
  · next sl hs =>
    split_ifs
    · exact h
    · exact lawful_endSlot h hs _
  · exact h

theorem lawful_faultSlots (h : (slotView s).Lawful e) : (slotView (faultSlots s)).Lawful e := by
  simp only [faultSlots, slotView_withdraw]
  refine lawful_foldl _ ?_ fun _ m _ ht => lawful_faultSlot ht m
  exact lawful_enterDues (s := dropGranted s) h _

end Operations
end Sys2Proof.Machine

/-! ## The Deferred Queue, the hold table, the Posting Store and restarts keep the two laws -/
namespace Sys2Proof.Machine
open Safety

section Queue
variable {e : Prop} {s : State} {x : DeferredEntry}

/-! ### The Deferred Queue (R91 to R101) -/

theorem mem_of_sentEntry (h : sentEntry s = some x) : x ∈ s.dq.area.entries ∧ x.sent = true :=
  ⟨List.mem_of_find?_eq_some h, List.find?_some h⟩

/-- The change of the SENT entry is decided (R95). -/
theorem lawful_dqDecided (h : (slotView s).Lawful e) (hx : sentEntry s = some x) (w : DqStep)
    (hw : w = .convert → x.kind = .claimRetry) :
    (slotView { s with dq := { s.dq with reply := none, pending := some w } }).Lawful e := by
  obtain ⟨hm, hs⟩ := mem_of_sentEntry hx
  refine h.putArea (a := s.dq.area) (w := some w) (fun he => (h.entries he).area) (fun _ y hy => ⟨y, hy, rfl⟩)
    (fun _ _ => ⟨x, hm, hs⟩) fun he hc y hy hys => ?_
  have hone : y ∈ s.dq.area.entries.filter (·.sent) := List.mem_filter.2 ⟨hy, hys⟩
  rw [filter_sent (a := s.dq.area) (h.entries he).area hm hs] at hone
  rw [List.mem_singleton.1 hone]
  exact hw (Option.some.inj hc)

/-- The SENT entry, and it alone, changes, and is WAITING again (R94, R98, R99). -/
theorem lawful_mapSent (h : (slotView s).Lawful e) (f : DeferredEntry → DeferredEntry) (ht : ∀ y, (f y).tag = y.tag)
    (hs : ∀ y, (f y).sent = false)
    (hx : e → ∀ y ∈ s.dq.area.entries, y.sent = true → exposed (f y) = exposed y)
    (hk : e → ∀ y ∈ s.dq.area.entries, (f y).kind = .claimRetry → (f y).origin = .none) :
    (((slotView s).putArea { s.dq.area with entries := mapSent f s.dq.area.entries } none).record
      [{ s.dq.area with entries := mapSent f s.dq.area.entries }]).Lawful e := by
  refine SlotView.Lawful.record_area (h.putArea (fun he => areaLaw_mapSent (h.entries he).area f ht hs (hx he) (hk he))
    (fun _ y hy => ?_) (fun _ hn => absurd rfl hn) fun _ hc => nomatch hc)
  obtain ⟨z, hz, rfl⟩ := List.mem_map.1 hy
  refine ⟨z, hz, ?_⟩
  split
  · exact (ht z).symm
  · rfl

theorem lawful_performDqStep (h : (slotView s).Lawful e) : (slotView (performDqStep s)).Lawful e := by
  unfold performDqStep
  rcases hp : s.dq.pending with _ | w
  · exact h
  rcases hx : sentEntry s with _ | x
  · exact h
  obtain ⟨hm, hs⟩ := mem_of_sentEntry hx
  cases w with
  | backToWaiting =>
    simp only [slotView_makeRecord, filterMap_deferred, List.filterMap_nil, slotView_putDeferred]
    refine lawful_mapSent h backToWaiting (fun _ => rfl) (fun _ => rfl) (fun _ _ _ _ => rfl) fun he y hy => ?_
    obtain ⟨-, -, -, -, hc⟩ := (h.entries he).area
    exact hc y hy
  | convert =>
    simp only [slotView_makeRecord, filterMap_deferred, List.filterMap_nil, slotView_putDeferred]
    refine lawful_mapSent h converted (fun _ => rfl) (fun _ => rfl) (fun he y hy hys => ?_) fun _ _ _ hc => nomatch hc
    obtain ⟨-, -, -, -, hc⟩ := (h.entries he).area
    have hy' := hc y hy ((h.entries he).convert hp y hy hys)
    simp [exposed, converted, hy']
  | remove filed day loss =>
    have hfile : ∀ t : State, slotView (if 0 < filed then fileActor (cardHome x.card) .redemption filed day t
        else (t, [])).1 = slotView t := fun t => by split <;> simp
    have hups : ∀ t : State, (if 0 < filed then fileActor (cardHome x.card) .redemption filed day t
        else (t, [])).2.filterMap deferredOf = [] := fun t => by split <;> simp
    simp only [slotView_makeRecord, filterMap_deferred, hfile, hups, slotView_putDeferred]
    refine SlotView.Lawful.record_area (h.putArea (w := none) (fun he => areaLaw_removeSent (h.entries he).area hm hs)
      (fun _ y hy => ⟨y, List.mem_of_mem_filter hy, rfl⟩) (fun _ hn => absurd rfl hn) fun _ hc => nomatch hc)

theorem lawful_dqStepIfGranted (h : (slotView s).Lawful e) : (slotView (dqStepIfGranted s)).Lawful e := by
  unfold dqStepIfGranted
  split
  · exact lawful_performDqStep (s := leaveWaiting .dqPending s) h
  · exact h

theorem lawful_dqDecide (h : (slotView s).Lawful e) (hx : sentEntry s = some x) (w : DqStep)
    (hw : w = .convert → x.kind = .claimRetry) : (slotView (dqDecide w s)).Lawful e :=
  lawful_dqStepIfGranted (s := settleWaiting { s with dq := { s.dq with reply := none, pending := some w } })
    (lawful_dqDecided h hx w hw)

theorem lawful_dqAnswer (h : (slotView s).Lawful e) (hx : sentEntry s = some x) {b : Body} (hb : answersEntry x b = true) :
    (slotView (dqAnswer x b s)).Lawful e := by
  have hback (st : Station) (l : BackoffLine) (w : DqStep) (hw : w = .convert → x.kind = .claimRetry) :
      (slotView (dqDecide w (putBackoff st l s))).Lawful e := lawful_dqDecide (s := putBackoff st l s) h hx w hw
  cases b with
  | stall => exact h
  | postOk | claimOk => exact hback _ _ _ fun hc => nomatch hc
  | postNo => exact hback _ _ _ fun hc => nomatch hc
  | claimNo =>
    simp only [dqAnswer]
    split
    · exact hback _ _ _ fun hc => nomatch hc
    · exact hback _ _ _ fun _ => of_decide_eq_true hb
  | _ => exact h

theorem lawful_offerAnswer (h : (slotView s).Lawful e) (src : Station) (b : Body) :
    (slotView (offerAnswer src b s)).Lawful e := by
  unfold offerAnswer
  split
  · next n sl hf =>
    obtain ⟨hk, -⟩ := slotTaking_takes hf
    exact lawful_trySlot (lawful_slotAnswer h (slotAt_of_find h hf) (state_of_takesKind hk) b) n
  · split
    · next x hx =>
      obtain ⟨hs, -, hb⟩ := dqTaking_takes hx
      exact lawful_dqAnswer h hs hb
    · exact h

/-- With no entry SENT no step is pending (R95). -/
theorem pending_of_sentEntry (h : (slotView s).Lawful e) (he : e) (hx : sentEntry s = none) : s.dq.pending = none := by
  by_contra hp
  obtain ⟨y, hy, hys⟩ := (h.entries he).step hp
  exact List.find?_eq_none.1 hx y hy hys

theorem lawful_forward (h : (slotView s).Lawful e) (hn : sentEntry s = none) (hx : x ∈ s.dq.area.entries) :
    (slotView (forward x s)).Lawful e := by
  have hws : ∀ y ∈ s.dq.area.entries, y.sent = false := fun y hy => by simpa using List.find?_eq_none.1 hn y hy
  simp only [forward, slotView_makeRecord, filterMap_deferred, List.filterMap_nil, slotView_reserve, slotView_putDeferred]
  refine SlotView.Lawful.record_area (h.putArea (fun he => areaLaw_forward (h.entries he).area hws hx) (fun _ y hy => ?_)
    (fun he hp => absurd (pending_of_sentEntry h he hn) hp) fun he hp => ?_)
  · obtain ⟨z, hz, rfl⟩ := List.mem_map.1 hy
    refine ⟨z, hz, ?_⟩
    split <;> rfl
  · exact nomatch (pending_of_sentEntry h he hn).symm.trans hp

/-- What a refund leaves of the entries: those of other tags unchanged, and no entry SENT that was not (R101). -/
theorem mem_refundArea {a : DeferredArea} {k : Nat} {y : DeferredEntry} (hy : y ∈ (refundArea a x k).entries) :
    ∃ z ∈ a.entries, z.tag = y.tag ∧ z.sent = y.sent ∧ z.kind = y.kind := by
  simp only [refundArea] at hy
  split at hy
  · exact ⟨y, List.mem_of_mem_filter hy, rfl, rfl, rfl⟩
  · obtain ⟨z, hz, rfl⟩ := List.mem_map.1 hy
    refine ⟨z, hz, ?_⟩
    split <;> exact ⟨rfl, rfl, rfl⟩

theorem mem_refundArea_of_ne {a : DeferredArea} {k : Nat} {y : DeferredEntry} (hy : y ∈ a.entries) (hn : y.tag ≠ x.tag) :
    y ∈ (refundArea a x k).entries := by
  simp only [refundArea]
  split
  · exact List.mem_filter.2 ⟨hy, by simpa using hn⟩
  · exact List.mem_map.2 ⟨y, hy, if_neg (by simpa using hn)⟩

theorem lawful_refund (h : (slotView s).Lawful e) (hx : x ∈ s.dq.area.entries) (hs : x.sent = false) {k : Nat}
    (hk : k ≤ x.amount) : ((slotView s).putArea (refundArea s.dq.area x k) s.dq.pending).Lawful e := by
  refine h.putArea (fun he => areaLaw_refund (h.entries he).area hx hk) (fun _ y hy => ?_) (fun he hp => ?_)
    fun he hc y hy hys => ?_
  · obtain ⟨z, hz, hzy, -⟩ := mem_refundArea hy
    exact ⟨z, hz, hzy⟩
  · obtain ⟨y, hy, hys⟩ := (h.entries he).step hp
    refine ⟨y, mem_refundArea_of_ne hy fun hyx => ?_, hys⟩
    have hone : y ∈ s.dq.area.entries.filter fun z => z.tag == x.tag := List.mem_filter.2 ⟨hy, by simpa using hyx⟩
    rw [filter_tag (a := s.dq.area) (h.entries he).area hx, List.mem_singleton] at hone
    rw [hone, hs] at hys
    cases hys
  · obtain ⟨z, hz, -, hzs, hzk⟩ := mem_refundArea hy
    exact hzk.symm.trans ((h.entries he).convert hc z hz (hzs.trans hys))

theorem refundTests_none {card : CardNo} {k : Nat} (h : refundTests s x card k = none) : x.sent = false ∧ k ≤ x.amount := by
  unfold refundTests at h
  split_ifs at h with h1 h2 h3 h4
  simp only [not_or, Bool.not_eq_true] at h2
  obtain ⟨-, h2, -⟩ := h2
  exact ⟨h2, not_lt.1 h3⟩

theorem lawful_takeRefund (h : (slotView s).Lawful e) (card : CardNo) (g : Tag) (k : Nat) :
    (slotView (takeRefund card g k s)).Lawful e := by
  simp only [takeRefund]
  split
  · exact lawful_takeOpening h _
  · next x hx =>
    split
    · exact h
    · next hr =>
      obtain ⟨hs, hk⟩ := refundTests_none hr
      simp only [slotView_accept, slotView_makeRecord, filterMap_deferred, filterMap_tagSeq, List.filterMap_nil,
        slotView_putTagSeq, slotView_putDeferred, slotView_takePlaces]
      exact SlotView.Lawful.record_area (lawful_refund h (List.mem_of_find?_eq_some hx) hs hk)

theorem lawful_faultDq (h : (slotView s).Lawful e) : (slotView (faultDq s)).Lawful e :=
  h.putArea (a := s.dq.area) (w := none) (fun he => (h.entries he).area) (fun _ y hy => ⟨y, hy, rfl⟩)
    (fun _ hn => absurd rfl hn) fun _ hc => nomatch hc

/-! ### The hold table (R42 to R49, R59, R62) -/

theorem liveHold_lt (h : (slotView s).Lawful e) (he : e) {i : Nat} {l : LiveHold} (hm : (i, l) ∈ liveHolds s) :
    i < 256 := by
  obtain ⟨x, hx, -⟩ := mem_liveHolds.1 hm
  exact (h.entries he).bound _ hx

theorem localHold_lt (h : (slotView s).Lawful e) (he : e) {g : Tag} {i : Nat} {l : LiveHold}
    (hl : localHold s g = some (i, l)) : i < 256 :=
  liveHold_lt h he (List.mem_of_mem_filter (List.mem_of_find?_eq_some hl))

theorem freeHold_lt : (freeHold s).getD 0 < 256 := by
  rcases hf : freeHold s with _ | i
  · exact Nat.zero_lt_succ _
  · simpa [Config.holdEntries] using lowest_lt hf

theorem holdIndex_lt (id : HoldId) : holdIndex id < 256 := (id.extractLsb' 8 8).isLt

theorem lawful_makeHold (h : (slotView s).Lawful e) (l : LiveHold) :
    (slotView (makeHold ((freeHold s).getD 0) l s)).Lawful e := h.putHold _ fun _ => freeHold_lt

theorem lawful_decideHold (h : (slotView s).Lawful e) (src : Station) (g : Tag) (card : CardNo) (c : Check) (k : Nat)
    (p : Bool) : (slotView (decideHold src g card c k p s)).Lawful e := by
  simp only [decideHold]
  (repeat' split) <;> simp only [slotView_answerNow]
  any_goals exact h
  exact lawful_makeHold h _

theorem lawful_decideClaim (h : (slotView s).Lawful e) (src : Station) (g : Tag) (card : CardNo) (id : HoldId) (k : Nat)
    (retry : Bool) : (slotView (decideClaim src g card id k retry s)).Lawful e := by
  have hfree (x : HoldEntry) : ((slotView s).putHold (holdIndex id) x).Lawful e := h.putHold x fun _ => holdIndex_lt id
  simp only [decideClaim]
  (repeat' split) <;> simp
  any_goals exact h
  · exact hfree _
  · exact hfree _

theorem lawful_decideDrop (h : (slotView s).Lawful e) (src : Station) (g : Tag) (id : HoldId) :
    (slotView (decideDrop src g id s)).Lawful e := by
  unfold decideDrop
  (repeat' split)
  · exact h.putHold _ fun _ => holdIndex_lt id
  · exact h
  · exact h

end Queue
end Sys2Proof.Machine

/-! ## Local requests, the line, the Posting Store, restarts and the clock keep the two laws -/
namespace Sys2Proof.Machine
open Safety

section Store
variable {e : Prop} {s : State}

/-! ### Local requests and holds that end (R43, R58, R59) -/

theorem lawful_takeLocalRedeem (h : (slotView s).Lawful e) (card : CardNo) (c : Check) (k : Nat) (p : Bool) :
    (slotView (takeLocalRedeem card c k p s)).Lawful e := by
  simp only [takeLocalRedeem]
  (repeat' split) <;> simp
  any_goals exact h
  exact h.putHold _ fun _ => freeHold_lt

theorem lawful_takeLocalConfirm (h : (slotView s).Lawful e) (g : Tag) (k : Nat) :
    (slotView (takeLocalConfirm g k s)).Lawful e := by
  simp only [takeLocalConfirm]
  split
  · exact h
  · next i l hl =>
    split
    · exact h
    · simpa using h.putHold ⟨(holdAt s i).gen, none⟩ fun he => localHold_lt h he hl

theorem lawful_takeLocalCancel (h : (slotView s).Lawful e) (g : Tag) : (slotView (takeLocalCancel g s)).Lawful e := by
  simp only [takeLocalCancel]
  split
  · exact h
  · next i l hl => simpa using h.putHold ⟨(holdAt s i).gen, none⟩ fun he => localHold_lt h he hl

theorem lawful_takeLocal (h : (slotView s).Lawful e) (r : LocalReq) : (slotView (takeLocal r s)).Lawful e := by
  cases r with
  | load => exact lawful_of_eq h (slotView_takeLocalLoad ..)
  | redeem => exact lawful_takeLocalRedeem h ..
  | ret => exact lawful_of_eq h (slotView_takeLocalReturn ..)
  | inquire => exact lawful_of_eq h (slotView_takeLocalInquire ..)
  | confirm => exact lawful_takeLocalConfirm h ..
  | cancel => exact lawful_takeLocalCancel h _

/-! ### Frames heard (R117 to R121) -/

theorem lawful_deliver (h : (slotView s).Lawful e) (src : Station) (b : Body) :
    (slotView (deliver src b s)).Lawful e := by
  unfold deliver
  split
  · exact lawful_of_eq h (slotView_tallyOpenArrives ..)
  · exact lawful_of_eq h (slotView_tallyArrives ..)
  · split
    · exact h
    · exact lawful_offerAnswer h src b

theorem lawful_takenFrame (h : (slotView s).Lawful e) (src dst : Station) (b : Body) :
    (slotView (takenFrame src dst b s)).Lawful e := by
  unfold takenFrame
  split
  · split
    · exact lawful_lineFails h _
    · exact h
  · split
    · exact h
    · split
      · exact h
      · exact lawful_deliver h src b

/-! ### The completion of a write (R125, R127) -/

theorem lawful_enteredHold (h : (slotView s).Lawful e) (g : Tag) : (slotView (enteredHold s g)).Lawful e := by
  unfold enteredHold
  split
  · next i l hl => exact h.putHold _ fun he => localHold_lt h he hl
  · exact h

theorem lawful_release (h : (slotView s).Lawful e) (d : Dependent) : (slotView (release d s)).Lawful e := by
  cases d with
  | placed n =>
    simp only [release, releasePlaced]
    split
    · exact lawful_enteredHold (s := enterPlaced n s) h _
    · exact h
  | slotFrame => exact lawful_releaseSlotFrame h ..
  | dqFrame =>
    simp only [release, releaseDqFrame]
    split <;> exact h
  | opened =>
    simp only [release, releaseOpened]
    split <;> exact h
  | payoutMade =>
    simp only [release, releasePayout]
    split <;> exact h
  | answer | slotNotice | loss | configured | tally => exact h

theorem lawful_releaseAll (h : (slotView s).Lawful e) (ds : List Dependent) :
    (slotView (releaseAll ds s)).Lawful e := lawful_foldl ds h fun _ d _ ht => lawful_release ht d

/-- The store and the records change: the area stored is lawful, and every area queued was queued before. -/
theorem SlotView.Lawful.settle {v : SlotView} (h : v.Lawful e) {a : DeferredArea} {q : List DeferredArea}
    (ha : e → areaLaw a) (hq : ∀ b ∈ q, b ∈ v.queued) : ({ v with stored := a, queued := q } : SlotView).Lawful e := by
  refine ⟨⟨h.slots.rises, h.slots.each⟩, fun he => ?_⟩
  obtain ⟨tags, holds, bound, area, -, queued, settled, step, convert⟩ := h.entries he
  exact ⟨tags, holds, bound, area, ha he, fun b hb => queued b (hq b hb), settled, step, convert⟩

/-- The stored DEFERRED area after some updates is one of theirs, or the one that stood (R128). -/
theorem applyUpdates_deferred (st : Store) (us : List AreaUpdate) :
    (us.foldl applyUpdate st).deferred = st.deferred ∨ .deferred (us.foldl applyUpdate st).deferred ∈ us := by
  induction us generalizing st with
  | nil => exact .inl rfl
  | cons u us ih =>
    rcases ih (applyUpdate st u) with h | h
    · cases u with
      | deferred a => exact .inr (List.mem_cons.2 (.inl (congrArg AreaUpdate.deferred h)))
      | _ => exact .inl h
    · exact .inr (List.mem_cons_of_mem _ h)

theorem lawful_commitHead (h : (slotView s).Lawful e) {r : PostingRecord} {rest : List PostingRecord}
    (hq : s.ps.queue = r :: rest) : (slotView (commitHead r rest s)).Lawful e := by
  refine h.settle (a := (applyRecord s.ps.store r).deferred) (q := queuedAreas rest) (fun he => ?_) fun b hb => ?_
  · rcases applyUpdates_deferred s.ps.store r.updates with hd | hd
    · exact hd ▸ (h.entries he).stored
    · exact (h.entries he).queued _ (mem_queuedAreas.2 ⟨r, hq ▸ List.mem_cons_self, hd⟩)
  · obtain ⟨x, hx, hb⟩ := mem_queuedAreas.1 hb
    exact mem_queuedAreas.2 ⟨x, hq ▸ List.mem_cons_of_mem _ hx, hb⟩

/-! ### The store fault (R62, R85, R103, R129, R155) -/

theorem lawful_tearWrite (h : (slotView s).Lawful e) : (slotView (tearWrite s)).Lawful e :=
  h.settle (a := s.ps.store.deferred) (q := []) (fun he => (h.entries he).stored) fun _ hb => nomatch hb

theorem slotView_faultDependent (s : State) (d : Dependent) : slotView (faultDependent s d) = slotView s := by
  cases d <;> simp only [faultDependent]
  case placed => split <;> rfl
  all_goals rfl

theorem lawful_faultHold (h : (slotView s).Lawful e) {x : Nat × LiveHold} (hx : e → x.1 < 256) :
    (slotView (faultHold s x)).Lawful e := by
  have hfree : (slotView (freeEntry x.1 x.2 s)).Lawful e := h.putHold _ hx
  simp only [faultHold]
  split <;> exact hfree

@[simp] theorem slotView_faultTp (s : State) : slotView (faultTp s) = slotView s := by
  simp only [faultTp]
  split <;> rfl

theorem lawful_storeFaulted (h : (slotView s).Lawful e) : (slotView (storeFaulted s)).Lawful e := by
  have h1 : (slotView ((s.ps.queue.flatMap (·.deps)).foldl faultDependent (tearWrite s))).Lawful e :=
    lawful_of_eq (lawful_tearWrite h) (slotView_foldl _ slotView_faultDependent _ _)
  simp only [storeFaulted, slotView_faultTp, slotView_faultTu]
  refine lawful_faultDq (lawful_faultSlots (lawful_foldl _ h1 fun t x hx ht => lawful_faultHold ht fun he => ?_))
  exact liveHold_lt h1 he (List.mem_of_mem_filter hx)

/-! ### Restarts (R128, R132, R174, R175) and the reload (R104, R133 to R136) -/

theorem areaLaw_nil : areaLaw ⟨[], 0⟩ := ⟨Nat.zero_le _, List.nodup_nil, Nat.zero_le _, rfl, fun _ h => nomatch h⟩

/-- With no slot and no hold the laws are those of the areas. -/
theorem lawful_blank {a st : DeferredArea} {q : List DeferredArea} (ha : e → areaLaw a) (hst : e → areaLaw st)
    (hq : e → ∀ b ∈ q, areaLaw b) : (⟨[], [], a, none, st, q⟩ : SlotView).Lawful e :=
  ⟨⟨rfl, fun _ _ h => nomatch h⟩, fun he => ⟨fun _ _ _ _ h => (nomatch h), rfl, fun _ h => (nomatch h), ha he, hst he,
    hq he, fun _ _ h => (nomatch h), fun h => absurd rfl h, fun h => (nomatch h)⟩⟩

theorem lawful_restarted (h : (slotView s).Lawful e) {t : State} (hr : Restarted s t) : (slotView t).Lawful e := by
  obtain ⟨hctu, hsu, hdq, -, hst, hq⟩ := hr
  have ht : slotView t = ⟨[], [], ⟨[], 0⟩, none, s.ps.store.deferred, queuedAreas t.ps.queue⟩ := by
    rw [slotView, hctu, hsu, hdq, hst]
    rfl
  rw [ht]
  refine lawful_blank (fun _ => areaLaw_nil) (fun he => (h.entries he).stored) fun he b hb => ?_
  obtain ⟨r, hr, hb⟩ := mem_queuedAreas.1 hb
  obtain ⟨r', hr', hu⟩ := hq r hr
  exact (h.entries he).queued b (mem_queuedAreas.2 ⟨r', hr', hu ▸ hb⟩)

/-- Some of an area's entries, in their order, with their own exposure. -/
theorem areaLaw_sublist {a : DeferredArea} (h : areaLaw a) {l : List DeferredEntry} (hl : l.Sublist a.entries) :
    areaLaw ⟨l, offlineSum l⟩ := by
  obtain ⟨hn, hd, h1, -, hc⟩ := h
  exact ⟨hl.length_le.trans hn, hd.sublist (hl.map _), (hl.filter _).length_le.trans h1, rfl,
    fun x hx => hc x (hl.subset hx)⟩

theorem passingPrefix_sublist (own : Station) (m : Nat) (seen : List Tag) (l : List DeferredEntry) :
    (passingPrefix own m seen l).Sublist l := by
  induction l generalizing m seen with
  | nil => cases m <;> exact .slnil
  | cons x l ih =>
    cases m with
    | zero => exact List.nil_sublist _
    | succ m =>
      unfold passingPrefix
      split
      · exact (ih m _).cons_cons x
      · exact List.nil_sublist _

/-- The reload makes no entry SENT, and changes no tag, kind or origin (R104). -/
theorem reloadEntry_fields (x : DeferredEntry) : (reloadEntry x).tag = x.tag ∧ (reloadEntry x).sent = false ∧
    (reloadEntry x).kind = x.kind ∧ (reloadEntry x).origin = x.origin := by
  unfold reloadEntry
  split
  · exact ⟨rfl, rfl, rfl, rfl⟩
  · next hs => exact ⟨rfl, by simpa using hs, rfl, rfl⟩

theorem areaLaw_reloadEntry {a : DeferredArea} (h : areaLaw a) :
    areaLaw ⟨a.entries.map reloadEntry, offlineSum (a.entries.map reloadEntry)⟩ := by
  refine areaLaw_map h reloadEntry (fun x => (reloadEntry_fields x).1) ?_ ?_ fun x hx hk => ?_
  · rw [List.filter_eq_nil_iff.2 fun x hx => ?_]
    · exact Nat.zero_le 1
    · obtain ⟨y, -, rfl⟩ := List.mem_map.1 hx
      obtain ⟨-, hs, -⟩ := reloadEntry_fields y
      simp [hs]
  · rw [offlineSum_eq, List.map_map]
    rfl
  · obtain ⟨-, -, -, -, hc⟩ := h
    obtain ⟨-, -, hkind, horigin⟩ := reloadEntry_fields x
    exact horigin.trans (hc x hx (hkind.symm.trans hk))

theorem areaLaw_reloaded {st : Store} (h : areaLaw st.deferred) : areaLaw ⟨reloadEntries st, offlineSum (reloadEntries st)⟩ := by
  unfold reloadEntries
  split_ifs
  · exact areaLaw_reloadEntry h
  · exact areaLaw_sublist h (List.Sublist.refl _)
  · exact areaLaw_sublist h (passingPrefix_sublist ..)
  · exact areaLaw_nil

theorem lawful_reloaded (h : (slotView s).Lawful e) : (slotView (reloaded s)).Lawful e :=
  lawful_blank (a := ⟨reloadEntries s.ps.store, _⟩) (st := s.ps.store.deferred) (q := [])
    (fun he => areaLaw_reloaded (h.entries he).stored) (fun he => (h.entries he).stored) fun _ _ hb => nomatch hb

/-! ### The clock (R184) -/

/-- The live holds change, and no index. -/
theorem SlotView.Lawful.mapHolds {v : SlotView} (h : v.Lawful e) (f : HoldEntry → HoldEntry) :
    ({ v with holds := v.holds.map fun x => (x.1, f x.2) } : SlotView).Lawful e := by
  refine ⟨⟨h.slots.rises, h.slots.each⟩, fun he => ?_⟩
  obtain ⟨tags, holds, bound, area, stored, queued, settled, step, convert⟩ := h.entries he
  refine ⟨tags, (Table.rises_map f v.holds).trans holds, fun x hx => ?_, area, stored, queued, settled, step, convert⟩
  obtain ⟨y, hy, rfl⟩ := List.mem_map.1 hx
  exact bound y hy

theorem lawful_tick (h : (slotView s).Lawful e) : (slotView (tick s)).Lawful e := by
  refine (h.slots_of_follows (t := tickSlots s.su.slots) ((rises_tickSlots _).trans h.slots.rises) fun m x hx => ?_).mapHolds
    tickedHold
  obtain ⟨y, hy, rfl⟩ := Option.map_eq_some_iff.1 ((slotAt_tick s m).symm.trans hx)
  refine ⟨y, hy, rfl, fun hc hst => ?_, id⟩
  obtain ⟨hh, ht⟩ := hc hst
  exact ⟨hh, by simpa [fall] using ht⟩

theorem lawful_clock (h : (slotView s).Lawful e) : (slotView (clock s)).Lawful e := by
  unfold clock
  split
  · exact h
  · exact lawful_tick (s := { s with tp := { s.tp with refCount := 0 } }) h

end Store
end Sys2Proof.Machine

/-! ## Every step keeps the slot law and the entry law (R64 to R66, R87 to R89) -/
namespace Sys2Proof.Machine
open Safety

/-- A command answers a next state, and that state is lawful. -/
def KeepsSlots (e : Prop) (o : Host.Outcome State Fault Refusal) : Prop := nextSatisfies o fun t => (slotView t).Lawful e

section Exec
variable {e : Prop} {s : State}

theorem keepsSlots_next {t : State} (h : (slotView t).Lawful e) : KeepsSlots e (.next t) := nextSatisfies_next.2 h

theorem keepsSlots_ite {c : Prop} [Decidable c] {t u : State} (h : c → (slotView t).Lawful e)
    (h' : ¬ c → (slotView u).Lawful e) : KeepsSlots e (if c then .next t else .next u) := by
  split
  · next hc => exact keepsSlots_next (h hc)
  · next hc => exact keepsSlots_next (h' hc)

/-- A command write: its work is done on the state with the command taken (R168). -/
theorem keepsSlots_intake (h : (slotView s).Lawful e) (code seq : Byte) {work : State → State}
    (hw : ∀ t, (slotView t).Lawful e → (slotView (work t)).Lawful e) : KeepsSlots e (intake code seq work s) := by
  unfold intake
  split
  · exact keepsSlots_next h
  · split
    · exact keepsSlots_next h
    · exact keepsSlots_next (hw (takeCommand code seq s) h)

theorem lawful_tested {test : State → Option Reason} {work : State → State}
    (hw : ∀ t, (slotView t).Lawful e → (slotView (work t)).Lawful e) (t : State) (h : (slotView t).Lawful e) :
    (slotView (tested test work t)).Lawful e := by
  unfold tested
  split
  · exact h
  · exact hw t h

/-- A command write whose work leaves the slot view. -/
theorem keepsSlots_plain (h : (slotView s).Lawful e) (code seq : Byte) {test : State → Option Reason} {work : State → State}
    (hw : ∀ t, slotView (work t) = slotView t) : KeepsSlots e (intake code seq (tested test work) s) :=
  keepsSlots_intake h code seq (lawful_tested fun t ht => lawful_of_eq ht (hw t))

theorem keepsSlots_completeFrame (h : (slotView s).Lawful e) (src dst : Station) (b : Option Body) :
    KeepsSlots e (completeFrame src dst b s) := by
  unfold completeFrame
  split
  · split
    · exact keepsSlots_ite (fun _ => h) fun _ => lawful_takenFrame (s := frameEnded s) h src dst _
    · exact keepsSlots_next h
  · exact keepsSlots_next h

/-! ### The Card Table Unit -/

theorem keepsSlots_localRequestTake (h : (slotView s).Lawful e) : KeepsSlots e (execLocalRequestTake s) := by
  unfold execLocalRequestTake
  split
  · exact keepsSlots_ite (fun _ => lawful_takeLocal (s := popLocal s) h _) fun _ => h
  · exact keepsSlots_next h

theorem keepsSlots_hold (h : (slotView s).Lawful e) : KeepsSlots e (execHold s) := by
  unfold execHold
  split
  · exact keepsSlots_ite (fun _ => lawful_decideHold (s := popLine s) h ..) fun _ => h
  · exact keepsSlots_next h

theorem keepsSlots_claim (h : (slotView s).Lawful e) : KeepsSlots e (execClaim s) := by
  unfold execClaim
  split
  · refine keepsSlots_ite (fun _ => lawful_decideClaim ?_ ..) fun _ => h
    split
    · exact h
    · exact lawful_of_eq h (slotView_announce (popLine s) ..)
  · exact keepsSlots_next h

theorem keepsSlots_drop (h : (slotView s).Lawful e) : KeepsSlots e (execDrop s) := by
  unfold execDrop
  split
  · exact keepsSlots_ite (fun _ => lawful_decideDrop (s := popLine s) h ..) fun _ => h
  · exact keepsSlots_next h

theorem keepsSlots_holdExpiry (h : (slotView s).Lawful e) (i : Fin 256) : KeepsSlots e (execHoldExpiry i s) := by
  unfold execHoldExpiry
  split
  · next l _ =>
    have hfree : (slotView (freeEntry i.val l s)).Lawful e := h.putHold _ fun _ => i.isLt
    split
    · exact keepsSlots_ite (fun _ => hfree) fun _ => lawful_of_eq hfree (slotView_secondNotice ..)
    · exact keepsSlots_next h
  · exact keepsSlots_next h

/-! ### Slots and the Deferred Queue -/

theorem keepsSlots_slotOpening (h : (slotView s).Lawful e) : KeepsSlots e (execSlotOpening s) := by
  unfold execSlotOpening
  split
  · exact keepsSlots_ite (fun _ => lawful_takeOpening (s := leaveWaiting .opening s) h _) fun _ => h
  · exact keepsSlots_next h

theorem keepsSlots_replyWindowExpiry (h : (slotView s).Lawful e) (n : Fin 32) :
    KeepsSlots e (execReplyWindowExpiry n s) := by
  unfold execReplyWindowExpiry
  split
  · next hs => exact keepsSlots_ite (fun _ => lawful_trySlot (lawful_noAnswer h hs) n.val) fun _ => h
  · exact keepsSlots_next h

theorem keepsSlots_slotHoldExpiry (h : (slotView s).Lawful e) (n : Fin 32) : KeepsSlots e (execSlotHoldExpiry n s) := by
  unfold execSlotHoldExpiry
  split
  · next hs => exact keepsSlots_ite (fun _ => lawful_releaseHeld h hs _) fun _ => h
  · exact keepsSlots_next h

theorem keepsSlots_noticeEntry (h : (slotView s).Lawful e) : KeepsSlots e (execNoticeEntry s) := by
  unfold execNoticeEntry
  split
  · exact keepsSlots_ite (fun _ => lawful_enterDue h _) fun _ => h
  · exact keepsSlots_next h

theorem keepsSlots_forwarderChoice (h : (slotView s).Lawful e) : KeepsSlots e (execForwarderChoice s) := by
  unfold execForwarderChoice
  split
  · next x hx =>
    refine keepsSlots_ite (fun hg => ?_) fun _ => h
    have hr := granted_ready ((isGranted_iff s _).1 hg)
    simp only [stepReady, forwarderReady, Bool.and_eq_true, Option.isNone_iff_eq_none] at hr
    obtain ⟨⟨⟨⟨-, hn⟩, -⟩, -⟩, -⟩ := hr
    exact lawful_forward (s := leaveWaiting .forwarder s) h hn (List.mem_of_find?_eq_some hx)
  · exact keepsSlots_next h

theorem keepsSlots_dqWindowExpiry (h : (slotView s).Lawful e) : KeepsSlots e (execDqWindowExpiry s) := by
  unfold execDqWindowExpiry
  split
  · next x hx =>
    exact keepsSlots_ite (fun _ => lawful_dqDecide (s := putBackoff _ _ s) h hx .backToWaiting fun hc => nomatch hc)
      fun _ => h
  · exact keepsSlots_next h

theorem keepsSlots_dqReturnTake (h : (slotView s).Lawful e) : KeepsSlots e (execDqReturnTake s) := by
  unfold execDqReturnTake
  split
  · exact keepsSlots_ite (fun _ => lawful_takeRefund (s := leaveWaiting .dqReturn s) h ..) fun _ => h
  · exact keepsSlots_next h

/-! ### The line, the Posting Store, supply and reset -/

theorem keepsSlots_bodyClash (h : (slotView s).Lawful e) : KeepsSlots e (execBodyClash s) := by
  unfold execBodyClash
  split
  · refine keepsSlots_ite (fun _ => ?_) fun _ => h
    exact lawful_lineFails (s := putReceiver .searching (stopSending (mapHead _ _ s))) h _
  · exact keepsSlots_next h

theorem keepsSlots_stuckTimerExpiry (h : (slotView s).Lawful e) : KeepsSlots e (execStuckTimerExpiry s) := by
  unfold execStuckTimerExpiry
  exact keepsSlots_ite (fun _ => lawful_lineFails h _) fun _ => h

theorem keepsSlots_writeCompletion (h : (slotView s).Lawful e) : KeepsSlots e (execWriteCompletion s) := by
  unfold execWriteCompletion
  split
  · next r rest hq =>
    have hc := lawful_commitHead h hq
    split
    · refine keepsSlots_ite (fun _ => lawful_restarted hc (restarted_startUpSteps _ rfl)) fun _ => ?_
      rw [slotView_tryConfigure]
      exact lawful_releaseAll hc r.deps
    · exact keepsSlots_next h
  · exact keepsSlots_next h

theorem keepsSlots_storeFault (h : (slotView s).Lawful e) : KeepsSlots e (execStoreFault s) := by
  unfold execStoreFault
  split
  · split
    · exact keepsSlots_ite (fun _ => lawful_restarted h (restarted_startUpSteps _ rfl)) fun _ => lawful_storeFaulted h
    · exact keepsSlots_next h
  · exact keepsSlots_next h

theorem keepsSlots_powerUp (h : (slotView s).Lawful e) : KeepsSlots e (execPowerUp s) := by
  unfold execPowerUp
  split
  · exact keepsSlots_next h
  · exact keepsSlots_ite (fun _ => h) fun _ => lawful_restarted h (restarted_startUpSteps _ rfl)

theorem keepsSlots_resetInputRelease (h : (slotView s).Lawful e) : KeepsSlots e (execResetInputRelease s) := by
  unfold execResetInputRelease
  split
  · exact keepsSlots_ite (fun _ => lawful_restarted h (restarted_startUpSteps _ rfl)) fun _ => h
  · exact keepsSlots_next h

/-! ### Every command -/

/-- Every command keeps the slot law, and the entry law with it. -/
theorem exec_keepsSlots (h : (slotView s).Lawful e) (c : Instr) : KeepsSlots e (exec c s) := by
  cases c with
  | configure => exact keepsSlots_plain h _ _ fun _ => slotView_takeConfigure ..
  | join => exact keepsSlots_plain h _ _ fun _ => slotView_joined ..
  | sell => exact keepsSlots_plain h _ _ fun _ => slotView_handTo ..
  | close | freeze | unfreeze => exact keepsSlots_plain h _ _ fun _ => slotView_routeHomeOp ..
  | load | redeem | returnCard | inquire => exact keepsSlots_plain h _ _ fun _ => slotView_routeCard ..
  | settle => exact keepsSlots_plain h _ _ fun _ => slotView_takeSettle ..
  | recount => exact keepsSlots_plain h _ _ fun _ => slotView_takeRecount ..
  | confirm => exact keepsSlots_intake h _ _ (lawful_tested fun _ ht => lawful_routeConfirm ht ..)
  | cancel => exact keepsSlots_intake h _ _ (lawful_tested fun _ ht => lawful_routeCancel ht _)
  | takeNotice => exact keepsSlots_intake h _ _ fun _ => lawful_takeNotice
  | clearEvents | setMask | status | readEvents => exact keepsSlots_intake h _ _ fun _ ht => ht
  | readCard | readCaplog | readDeferred | readPayout =>
    simp only [exec_readCard, exec_readCaplog, exec_readDeferred, exec_readPayout]
    refine keepsSlots_intake h _ _ fun t ht => ?_
    (repeat' split) <;> exact ht
  | reset => exact keepsSlots_ite (fun _ => lawful_restarted h (restarted_beginReset s)) fun _ => h
  | malformed => exact keepsSlots_ite (fun _ => h) fun _ => h
  | powerUp => exact keepsSlots_powerUp h
  | powerFailure => exact keepsSlots_ite (fun _ => lawful_restarted h (restarted_stopped rfl)) fun _ => h
  | resetInputAssert => exact keepsSlots_ite (fun _ => h) fun _ => lawful_restarted h (restarted_stopped rfl)
  | resetInputRelease => exact keepsSlots_resetInputRelease h
  | reload => exact keepsSlots_ite (fun _ => lawful_reloaded h) fun _ => h
  | localRequestTake => exact keepsSlots_localRequestTake h
  | hold => exact keepsSlots_hold h
  | claim => exact keepsSlots_claim h
  | drop => exact keepsSlots_drop h
  | holdExpiry i => exact keepsSlots_holdExpiry h i
  | slotOpening => exact keepsSlots_slotOpening h
  | replyWindowExpiry n => exact keepsSlots_replyWindowExpiry h n
  | slotHoldExpiry n => exact keepsSlots_slotHoldExpiry h n
  | offlineDecision n | slotDeferredEntry n | actorFiling n =>
    have hn := keepsSlots_next (lawful_stepIfGranted h n.val)
    have hs := keepsSlots_next h
    simp only [exec, execOfflineDecision, execSlotDeferredEntry, execActorFiling]
    split <;> assumption
  | noticeEntry => exact keepsSlots_noticeEntry h
  | forwarderChoice => exact keepsSlots_forwarderChoice h
  | dqPendingStep => exact keepsSlots_next (lawful_dqStepIfGranted h)
  | dqWindowExpiry => exact keepsSlots_dqWindowExpiry h
  | dqReturnTake => exact keepsSlots_dqReturnTake h
  | storeFault => exact keepsSlots_storeFault h
  | writeCompletion => exact keepsSlots_writeCompletion h
  | bodyClash => exact keepsSlots_bodyClash h
  | stuckTimerExpiry => exact keepsSlots_stuckTimerExpiry h
  | stall | holdOk | holdNo | claimOk | claimNo | postOk | postNo | loadOk | loadNo | returnOk | returnNo | balance
  | inquireNo | tallyOpen | tally | receiveQueueEntry => exact keepsSlots_completeFrame h ..
  | homeOperationTake | post | loadFrame | returnFrame | inquireFrame =>
    simp only [exec, execHomeOperationTake, execPost, execLoadFrame, execReturnFrame, execInquireFrame]
    (repeat' split) <;> exact keepsSlots_next (lawful_of_eq h (by simp))
  | roundOpening | tallyStep | receptionStep | cutShortStep | payoutRecord =>
    simp only [exec, execRoundOpening, execTallyStep, execReceptionStep, execCutShortStep, execPayoutRecord]
    (repeat' split) <;> exact keepsSlots_next (lawful_of_eq h (by simp))
  | bodyLengthDiscard | frameStart | arbitrationLost | frameSentWhole | idleGap | startSymbol =>
    simp only [exec, execBodyLengthDiscard, execFrameStart, execArbitrationLost, execFrameSentWhole, execIdleGap,
      execStartSymbol]
    (repeat' split) <;> exact keepsSlots_next h
  | backoffExpiry | quietTimerExpiry | tallyTimerExpiry | computationCompletion | tallyOpenEntry =>
    simp only [exec, execBackoffExpiry, execQuietTimerExpiry, execTallyTimerExpiry, execComputationCompletion,
      execTallyOpenEntry]
    (repeat' split) <;> exact keepsSlots_next h

theorem lawful_of_exec {c : Instr} {t : State} (hs : (slotView s).Lawful e) (h : exec c s = .next t) :
    (slotView t).Lawful e := by
  obtain ⟨u, hu, hk⟩ := exec_keepsSlots hs c
  cases h.symm.trans hu
  exact hk

theorem lawful_of_step {t : State} (hs : (slotView s).Lawful e) (h : step s = .next t) : (slotView t).Lawful e := by
  unfold step at h
  split at h
  · next c rest _ => exact lawful_of_exec (s := { s with pending := rest }) hs h
  · unfold idle at h
    split at h
    · split at h
      · cases h; exact lawful_clock hs
      · cases h; exact hs
    · exact lawful_of_exec hs h
    · exact lawful_of_exec (s := { s with choices := s.choices + 1 }) hs h

end Exec

/-- Settles O10: what every command keeps of the slot view, a period of the clock included; the slot law of itself, and the
entry law with it. -/
theorem stepKeepsSlots : Obligations.StepKeepsSlots := by
  refine ⟨fun s t hs h => ?_, fun s t hs he h => ?_⟩
  · have hl : (slotView s).Lawful False := (lawful_iff _ s).2 ⟨hs, False.elim⟩
    exact ((lawful_iff _ t).1 (lawful_of_step hl h)).1
  · have hl : (slotView s).Lawful True := (lawful_iff _ s).2 ⟨hs, fun _ => he⟩
    exact ((lawful_iff _ t).1 (lawful_of_step hl h)).2 trivial

end Sys2Proof.Machine

/-! ## A RETURN against a waiting entry (R89, R100, R101) -/
namespace Sys2Proof.Machine
open Safety

section Refund
variable {s : State} {card : CardNo} {origTag : Tag} {amount : Nat} {e : DeferredEntry}

/-- A RETURN against a deferred entry, granted its write-queue place, is taken (R100, R126). -/
theorem dqReturnTake_granted (hg : granted s = some .dqReturn) (hh : s.tp.hand = some (.dqReturn card origTag amount)) :
    exec .dqReturnTake s = .next (settleWaiting (takeRefund card origTag amount (leaveWaiting .dqReturn s))) := by
  show execDqReturnTake s = _
  simp only [execDqReturnTake, hh, (isGranted_iff s _).2 hg, if_true]

theorem tag_of_entryTagged (he : entryTagged s origTag = some e) : e.tag = origTag := by
  simpa using List.find?_some he

/-- The tests of R100 pass a waiting POST that was never sent, of this card, with the amount left and a place for the notice. -/
theorem refundTests_of_waiting (hc : card = e.card) (hk : e.kind = .post) (hs : e.sent = false) (ha : e.attempts = 0)
    (hle : amount ≤ e.amount) (hp : 1 ≤ sparePlaces s) : refundTests s e card amount = none := by
  simp [refundTests, hc, hk, hs, ha, Nat.not_lt.2 hle, Nat.one_le_iff_ne_zero.1 hp]

/-- A RETURN that passes the tests changes the area and advances the tag in one record, its notice in a taken place (R101). -/
theorem takeRefund_passed (he : entryTagged s origTag = some e) (ht : refundTests s e card amount = none) :
    takeRefund card origTag amount s = accept (nextTag s) []
      (makeRecord [.deferred (refundArea s.dq.area e amount), .tagSeq (nextTag s)]
        [.placed { plainNotice (nextTag s) card .returned with amountA := amount, day := liveDay s } amount]
        (putTagSeq (nextTag s) (putDeferred (refundArea s.dq.area e amount) (takePlaces 1 s)))) := by
  simp only [takeRefund, he, ht]

/-- The area after a refund: the entry is removed or reduced, and the exposure falls with an OFFLINE entry (R89, R101). -/
theorem refundArea_eq (a : DeferredArea) (e : DeferredEntry) (amount : Nat) : refundArea a e amount =
    ⟨if e.amount = amount then a.entries.filter fun x => x.tag != e.tag
      else a.entries.map fun x => if x.tag = e.tag then { x with amount := x.amount - amount } else x,
      if e.origin = .offline then a.exposure - amount else a.exposure⟩ := by
  by_cases ho : e.origin = .offline <;> simp [refundArea, ho]

end Refund

/-- Settles O49: the tests of R100 pass, and the refund made is the one of R101. -/
theorem refundTaken : Obligations.RefundTaken := by
  intro s card origTag amount e a hg hh he hc hk hs hz hle hp ha
  have ht : refundTests (leaveWaiting .dqReturn s) e card amount = none := refundTests_of_waiting hc hk hs hz hle hp
  have harea : refundArea s.dq.area e amount = a := by rw [refundArea_eq, tag_of_entryTagged he, ha]
  have hx := dqReturnTake_granted hg hh
  rw [takeRefund_passed (s := leaveWaiting .dqReturn s) he ht, leaveWaiting_dq, harea] at hx
  exact ⟨_, hx, rfl, rfl, rfl, rfl, rfl⟩

end Sys2Proof.Machine

/-! ## The forwarder's choice and the return to WAITING (R92 to R95, R99) -/
namespace Sys2Proof.Machine
open Safety

section Forwarding
variable {s : State} {e : DeferredEntry}

/-- The forwarder's choice, granted its write-queue place, is made (R92, R126). -/
theorem forwarderChoice_granted (hg : granted s = some .forwarder) (he : eligible s = some e) :
    exec .forwarderChoice s = .next (settleWaiting (forward e (leaveWaiting .forwarder s))) := by
  show execForwarderChoice s = _
  simp only [execForwarderChoice, he, (isGranted_iff s _).2 hg, if_true]

/-- The choice marks the entry SENT in one record, with its frame attached and the frame's place reserved (R93). -/
theorem forward_eq {a : DeferredArea} (ha : a = { s.dq.area with
      entries := s.dq.area.entries.map fun x => if x.tag = e.tag then { x with sent := true } else x }) :
    forward e s =
      makeRecord [.deferred a] [.dqFrame (cardHome e.card) (entryBody e)] (reserve .c3 (putDeferred a s)) := by
  simp only [forward, beq_iff_eq, ha]

/-- The Deferred Queue's pending step, granted its write-queue place, is made (R95, R126). -/
theorem dqPendingStep_granted (hg : granted s = some .dqPending) :
    exec .dqPendingStep s = .next (settleWaiting (performDqStep (leaveWaiting .dqPending s))) := by
  show execDqPendingStep s = _
  rw [execDqPendingStep, dqStepIfGranted, if_pos ((isGranted_iff s _).2 hg)]

/-- The return of the SENT entry to WAITING, made: the entry changed in one record, and no step pending (R94, R99). -/
theorem performDqStep_backToWaiting (hw : s.dq.pending = some .backToWaiting) (he : sentEntry s = some e) :
    performDqStep s = makeRecord [.deferred { s.dq.area with entries := mapSent backToWaiting s.dq.area.entries }] []
      (putDeferred { s.dq.area with entries := mapSent backToWaiting s.dq.area.entries }
        { s with dq := { s.dq with pending := none } }) := by
  simp only [performDqStep, hw, he]

end Forwarding

/-- Settles O51, step by step. -/
theorem forwarderAndPendingStep : Obligations.ForwarderAndPendingStep := by
  intro s e a
  refine ⟨fun hg he ha => ?_, fun hg hw he ha => ?_⟩
  · have hx := forwarderChoice_granted hg he
    rw [forward_eq (s := leaveWaiting .forwarder s) ha] at hx
    exact ⟨_, hx, rfl, rfl, rfl, rfl⟩
  · have hx := dqPendingStep_granted hg
    rw [performDqStep_backToWaiting (s := leaveWaiting .dqPending s) hw he] at hx
    subst ha
    exact ⟨_, hx, rfl, rfl, rfl⟩

end Sys2Proof.Machine

/-! ## JOIN and RESET (R105, R122, R132, R156, R173 to R175) -/
namespace Sys2Proof.Machine
open Safety

section Joining
variable {s : State}

/-- With a member peer, sending starts with the whole list and the tally timer off (R144). -/
theorem startSending_of_peers (h : memberPeers s ≠ []) :
    startSending s = { s with tu := { s.tu with sendList := memberPeers s, tally := none } } := by
  simp [startSending, h]

/-- A round rebuilt in QUIET resumes with the quiet timer at Q (R156). -/
theorem resumeRound_of_quiet (h : s.tu.state = .quiet) :
    resumeRound s = { s with tu := { s.tu with quiet := some (quietTime s) } } := by simp only [resumeRound, h]

/-- A round rebuilt in TALLYING resumes with its sending (R156). -/
theorem resumeRound_of_tallying (h : s.tu.state = .tallying) : resumeRound s = startSending s := by
  simp only [resumeRound, h]

/-- In every other state of the round nothing resumes (R156). -/
theorem resumeRound_of_other (hq : s.tu.state ≠ .quiet) (ht : s.tu.state ≠ .tallying) : resumeRound s = s := by
  unfold resumeRound
  split
  · next h => exact absurd h hq
  · next h => exact absurd h ht
  · rfl

/-- A JOIN accepted, before a rebuilt round resumes (R105, R173). -/
def joinAccepted (seq : Byte) (s : State) : State :=
  { s with
    tp := { answered s (acceptedAs 0x02 seq 0 []) with station := .joined }
    lc := { s.lc with line := .active, stuck := 500, receiver := .searching } }

/-- Resuming the round changes the Tally Unit alone, and reads nothing that the acceptance changes (R156). -/
theorem resumeRound_joinAccepted (seq : Byte) (s : State) :
    resumeRound (joinAccepted seq s) = { joinAccepted seq s with tu := (resumeRound s).tu } := by
  have htu : (joinAccepted seq s).tu = s.tu := rfl
  simp only [resumeRound, htu]
  split <;> rfl

/-- CONFIGURED passes JOIN's station-state test (R169). -/
theorem joinTest_of_configured (seq : Byte) (h : s.tp.station = .configured) : joinTest (takeCommand 0x02 seq s) = none := by
  simp [joinTest, h]

/-- JOIN taken by an idle port in CONFIGURED: accepted, and the round resumed (R168, R169, R173). -/
theorem exec_join_of_configured (seq : Byte) (hi : idlePort s) (hc : s.tp.station = .configured) :
    exec (.join seq) s = .next (settleWaiting { joinAccepted seq s with tu := (resumeRound s).tu }) := by
  have hj : tested joinTest joined (takeCommand 0x02 seq s) = resumeRound (joinAccepted seq s) :=
    tested_of_none _ joinTest joined (joinTest_of_configured seq hc)
  show execJoin seq s = _
  rw [execJoin, intake_of_idle 0x02 seq s _ hi, hj, resumeRound_joinAccepted]

end Joining

/-- Settles O28: the acceptance as it stands, and the Tally Unit by the state of the rebuilt round. -/
theorem joinTaken : Obligations.JoinTaken := by
  intro s seq hi hc
  refine ⟨_, exec_join_of_configured seq hi hc, rfl, rfl, fun hq => ?quiet, fun ht hp => ?tallying, fun hq ht => ?other,
    rfl, rfl⟩
  case quiet => exact congrArg State.tu (resumeRound_of_quiet hq)
  case tallying => exact congrArg State.tu ((resumeRound_of_tallying ht).trans (startSending_of_peers hp))
  case other =>
    show (resumeRound s).tu = s.tu
    rw [resumeRound_of_other hq ht]

section Resetting
variable {s : State}

/-- RESET is taken in every command state and station state while the part runs (R174). -/
theorem exec_reset_of_running (seq : Byte) (h : isRunning s = true) : exec (.reset seq) s = .next (beginReset s) :=
  if_pos h

/-- With no write under way the start-up goes to its reload at once, with cause COMMAND (R132, R175). -/
theorem beginReset_of_nil (h : s.ps.queue = []) :
    beginReset s = startUpSteps .command { s with tp := { s.tp with refCount := 0, intake := .taken } } := by
  simp only [beginReset, h]

/-- With a write under way the start-up lets it end, its dependents and the records behind it gone (R132; log 17). -/
theorem beginReset_of_cons {r : PostingRecord} {rest : List PostingRecord} (h : s.ps.queue = r :: rest) :
    beginReset s = { clearBlocks s with
      tp := { s.tp with refCount := 0, intake := .taken, startup := .finishing, busy := true, hand := none }
      ps := { s.ps with queue := [{ r with deps := [] }], waiting := [] } } := by
  simp only [beginReset, h]
  rfl

end Resetting

/-- Settles O29, by whether a write is under way. -/
theorem resetTaken : Obligations.ResetTaken := by
  intro s seq hr
  refine ⟨_, exec_reset_of_running seq hr, ?_⟩
  cases hq : s.ps.queue with
  | nil =>
    rw [beginReset_of_nil hq]
    exact ⟨rfl, rfl, rfl, rfl, rfl, rfl, rfl, rfl, rfl, fun _ => ⟨rfl, rfl, rfl, rfl, rfl, rfl, rfl, rfl, rfl⟩,
      fun _ _ h => absurd h.symm (List.cons_ne_nil _ _)⟩
  | cons r rest =>
    rw [beginReset_of_cons hq]
    refine ⟨rfl, rfl, rfl, rfl, rfl, rfl, rfl, rfl, rfl, fun h => absurd h (List.cons_ne_nil r rest),
      fun r' rest' h => ?_⟩
    obtain ⟨rfl, rfl⟩ := List.cons.inj h
    exact ⟨rfl, rfl, rfl⟩

end Sys2Proof.Machine

/-! ## The front command, the supply and the station state (R126, R128, R132, R169, R175, R184) -/
namespace Sys2Proof.Machine
open Safety

/-- The command in front is run with the queue's rest (R126). -/
theorem step_of_command (c : Instr) (rest : List Instr) (s : State) (h : s.pending = c :: rest) :
    step s = exec c { s with pending := rest } := by
  simp only [step, h]

/-- With none waiting and nothing due a part that runs does one period of its clock (R184; log 2). -/
theorem step_of_nothing_due {s : State} (hp : s.pending = []) (hr : isRunning s = true) (hd : due s = []) :
    step s = .next (clock s) := by
  simp only [step, hp, idle, hd, hr, if_true]

/-- Settles O1: the front command is run with the queue's rest; with nothing due the idle part runs its clock. -/
theorem stepRunsFrontCommand : Obligations.StepRunsFrontCommand := fun s c rest =>
  ⟨step_of_command c rest { s with pending := c :: rest } rfl, fun hr hd =>
    step_of_nothing_due (s := { s with pending := [] }) rfl hr hd⟩

/-! ### Supply and reset pin (R128, R138, R175) -/

section Supply
variable {s : State}

theorem exec_powerFailure (h : s.tp.powered = true) :
    exec .powerFailure s = .next (stopped { s with tp := { s.tp with powered := false } }) := if_pos h

theorem exec_resetInputAssert (h : s.tp.rstHeld = false) :
    exec .resetInputAssert s = .next (stopped { s with tp := { s.tp with rstHeld := true } }) := by
  simp only [exec, execResetInputAssert, h, Bool.false_eq_true, if_false]

theorem exec_powerUp (hp : s.tp.powered = false) (hh : s.tp.rstHeld = false) :
    exec .powerUp s = .next (beginPower { s with tp := { s.tp with powered := true } }) := by
  simp only [exec, execPowerUp, hp, hh, Bool.false_eq_true, if_false]

theorem exec_resetInputRelease (hp : s.tp.powered = true) (hh : s.tp.rstHeld = true) :
    exec .resetInputRelease s = .next (beginPower { s with tp := { s.tp with rstHeld := false } }) := by
  simp only [exec, execResetInputRelease, hp, hh, if_true]

/-- A start-up with cause POWER has the port of a reset, its reload to come (R132, R175, R184). -/
theorem beginPower_tp (hp : s.tp.powered = true) (hh : s.tp.rstHeld = false) :
    (beginPower s).tp = { resetTp with startup := .reloading, busy := true } := by
  simp only [beginPower, startUpSteps, clearQueue, clearBlocks, resetTp, hp, hh]

end Supply

/-- Settles O30: a stop clears the queue over an untouched store, and each begin of a start-up has the same port. -/
theorem powerAndResetPin : Obligations.PowerAndResetPin := fun _ =>
  ⟨fun hp => ⟨_, exec_powerFailure hp, rfl, rfl, rfl, rfl⟩,
    fun hh => ⟨_, exec_resetInputAssert hh, rfl, rfl, rfl, rfl⟩,
    fun hp hh => ⟨_, exec_powerUp hp hh, beginPower_tp rfl hh, rfl, rfl⟩,
    fun hp hh => ⟨_, exec_resetInputRelease hp hh, beginPower_tp hp rfl, rfl, rfl⟩⟩

/-! ### Refusals by the station state (R169, R171, R173) -/

section Refusals
variable {c : Instr} {code seq : Byte} {ps : List Byte}

/-- A card or settlement command is an intake under the test of R169. -/
theorem exec_of_tradeCommand (h : encodeCommand c = some (code, seq, ps)) (ht : tradeCommand c = true) :
    ∃ work : State → State, ∀ s, exec c s = intake code seq (tested tradeTest work) s := by
  cases c with
  | sell q a e => cases e <;> cases h <;> exact ⟨_, fun _ => rfl⟩
  | inquire q a k t => cases t <;> cases h <;> exact ⟨_, fun _ => rfl⟩
  | close | freeze | unfreeze | load | redeem | confirm | cancel | returnCard | settle | recount =>
    cases h
    exact ⟨_, fun _ => rfl⟩
  | _ => cases ht

/-- A card or settlement command, CONFIGURE and JOIN are each an intake under a test that fails STORE-FAULT in HALTED-STORE
(R131, R169). -/
theorem exec_of_stationTested (h : encodeCommand c = some (code, seq, ps)) (hm : ∀ a b l, c ≠ .malformed a b l)
    (hc : tradeCommand c = true ∨ code = 0x01 ∨ code = 0x02) :
    ∃ (test : State → Option Reason) (work : State → State), (∀ s, exec c s = intake code seq (tested test work) s) ∧
      ∀ s, s.tp.station = .halted → test s = some .storeFault := by
  rcases hc with ht | hc
  · obtain ⟨work, hw⟩ := exec_of_tradeCommand h ht
    exact ⟨tradeTest, work, hw, fun s hs => by simp [tradeTest, hs]⟩
  · cases c with
    | configure q p => cases h; exact ⟨configureTest, _, fun _ => rfl, fun s hs => by simp [configureTest, hs]⟩
    | join q => cases h; exact ⟨joinTest, _, fun _ => rfl, fun s hs => by simp [joinTest, hs]⟩
    | malformed a b l => exact absurd rfl (hm a b l)
    | sell q a e => cases e <;> cases h <;> simp at hc
    | inquire q a k t => cases t <;> cases h <;> simp at hc
    | _ => cases h <;> simp at hc

/-- A command its station-state test refuses shows the reason, and nothing but the Till Port is changed (R12, R169). -/
theorem refused_by_station {s : State} {r : Reason} {test : State → Option Reason} {work : State → State}
    (hx : ∀ s, exec c s = intake code seq (tested test work) s) (hi : idlePort s)
    (ht : test (takeCommand code seq s) = some r) :
    nextSatisfies (exec c s) fun t => t.tp = answered s (refusedAs code seq r) ∧ onlyPort s t := by
  obtain ⟨t, ht, hp, ha⟩ := intake_refused hi (tested_of_some _ test work r ht)
  exact ⟨t, (hx s).trans ht, ha, hp⟩

end Refusals

/-- Settles O25: each such command is tested by its station state before it is worked on. -/
theorem stationStateRefusals : Obligations.StationStateRefusals := by
  intro c s code seq ps r h hi hc
  rcases hc with ⟨ht, hs, rfl⟩ | ⟨hc, hm, hs, rfl⟩ | ⟨⟨p, rfl⟩, hs, rfl⟩ | ⟨rfl, hs, rfl⟩
  · obtain ⟨work, hw⟩ := exec_of_tradeCommand h ht
    refine refused_by_station hw hi ?_
    rcases hs with hs | hs <;> simp [tradeTest, hs]
  · obtain ⟨test, work, hw, ht⟩ := exec_of_stationTested h hm hc
    exact refused_by_station hw hi (ht _ hs)
  · cases h
    exact refused_by_station (fun _ => rfl) hi (by simp [configureTest, hs])
  · cases h
    refine refused_by_station (fun _ => rfl) hi ?_
    rcases hs with hs | hs <;> simp [joinTest, hs]

end Sys2Proof.Machine

/-! ## CONFIGURE made at its take (R126, R137, R171) -/
namespace Sys2Proof.Machine
open Safety

/-! ### Which step is made next (R126) -/

section Waiting
variable {s : State}

/-- Giving places leaves the steps and their order. -/
theorem steps_givePlaces (s : State) : ∀ (n : Nat) (l : List Waiting), (givePlaces s n l).map (·.step) = l.map (·.step)
  | _, [] => by unfold givePlaces; rfl
  | 0, w :: l => by unfold givePlaces; rfl
  | n + 1, w :: l => by
    unfold givePlaces
    split <;> simp only [List.map_cons, steps_givePlaces s _ l]

/-- Among ready steps, with a place held or free, one holds a place: a place held stays held, a free one goes to the first
without one (R126). -/
theorem exists_held_givePlaces {n : Nat} {l : List Waiting} (hr : ∀ w ∈ l, stepReady s w.step = true) (hl : l ≠ [])
    (hn : 0 < n + heldPlaces l) : ∃ w ∈ givePlaces s n l, w.held = true := by
  cases n with
  | zero =>
    obtain ⟨w, hw, hh⟩ := List.countP_pos_iff.1 (by simpa [heldPlaces] using hn : 0 < l.countP (·.held))
    refine ⟨w, ?_, hh⟩
    cases l with
    | nil => exact absurd rfl hl
    | cons x l => unfold givePlaces; exact hw
  | succ n =>
    cases l with
    | nil => exact absurd rfl hl
    | cons w l =>
      unfold givePlaces
      by_cases hw : w.held = true
      · exact ⟨w, by simp [hw], hw⟩
      · exact ⟨{ w with held := true }, by simp [hw, hr w (List.mem_cons_self ..)], rfl⟩

/-- A ready step that alone waits for an empty write queue is made next (R126). -/
theorem granted_settleWaiting {w : WaitStep} (hr : stepReady s w = true) (hq : s.ps.queue = [])
    (hs : ∀ x ∈ standing s, x.step = w) (hn : standing s ≠ []) : granted (settleWaiting s) = some w := by
  have hsteps : ∀ x ∈ waitingNow s, x.step = w := fun x hx => by
    have hm : x.step ∈ (standing s).map (·.step) := by
      rw [← steps_givePlaces s _ (standing s)]
      exact List.mem_map_of_mem hx
    obtain ⟨y, hy, he⟩ := List.mem_map.1 hm
    exact he ▸ hs y hy
  obtain ⟨x, hx, hh⟩ := exists_held_givePlaces (n := Config.records - s.ps.queue.length - heldPlaces (standing s))
    (fun y hy => (hs y hy).symm ▸ hr) hn (by rw [hq]; simp only [Config.records, List.length_nil]; omega)
  have hf : (waitingNow s).find? (fun y => y.held && stepReady s y.step) ≠ none := by
    rw [Ne, List.find?_eq_none]
    exact fun h => h x hx (by rw [hh, hsteps x hx, hr]; rfl)
  obtain ⟨y, hy⟩ := Option.ne_none_iff_exists'.1 hf
  show ((waitingNow s).find? fun y => y.held && stepReady s y.step).map (·.step) = some w
  rw [hy, Option.map_some, hsteps y (List.mem_of_find?_eq_some hy)]

/-- What stands in the waiting order has its cause there, or comes to wait now (R126). -/
theorem mem_standing {x : Waiting} (h : x ∈ standing s) : stepStands s x.step = true ∨ stepArises s x.step = true := by
  simp only [standing, List.mem_append, List.mem_map, List.mem_filter, Bool.and_eq_true] at h
  rcases h with ⟨w, ⟨-, hw⟩, rfl⟩ | ⟨w, ⟨-, hw, -⟩, rfl⟩
  · exact .inl hw
  · exact .inr hw

/-- A step that comes to wait now stands in the waiting order (R126; log 4). -/
theorem mem_standing_of_arises {w : WaitStep} (hc : w ∈ waitCandidates s) (h : stepArises s w = true) :
    ∃ x ∈ standing s, x.step = w := by
  simp only [standing]
  by_cases hk : ∃ x ∈ (s.ps.waiting.filter fun w => stepStands s w.step).map fun w =>
      { w with held := w.held && stepReady s w.step }, x.step = w
  · obtain ⟨x, hx, he⟩ := hk
    exact ⟨x, List.mem_append_left _ hx, he⟩
  · refine ⟨⟨w, false⟩, List.mem_append_right _ (List.mem_map.2 ⟨w, List.mem_filter.2 ⟨hc, ?_⟩, rfl⟩), rfl⟩
    simp only [h, Bool.true_and, Bool.not_eq_true', List.any_eq_false, beq_iff_eq]
    exact fun x hx he => hk ⟨x, hx, he⟩

end Waiting

/-! ### CONFIGURE before JOIN (R137, R171) -/

section Configure
variable {s : State}

/-- Before JOIN no step but CONFIGURE has a cause to wait (R173). -/
theorem stepStands_beforeJoin (hj : isJoined s = false) (ho : isOpen s = false) {w : WaitStep} (hw : w ≠ .configure) :
    stepStands s w = false := by
  cases w with
  | configure => exact absurd rfl hw
  | ctuLine => simp only [stepStands, ho, Bool.false_and]
  | ctuLocal => simp only [stepStands, localWaits, hj, Bool.false_and]
  | _ => simp only [stepStands, hj, Bool.false_and]

/-- Before JOIN no step but CONFIGURE comes to wait (R173). -/
theorem stepArises_beforeJoin (hj : isJoined s = false) (ho : isOpen s = false) {w : WaitStep} (hw : w ≠ .configure) :
    stepArises s w = false := by
  cases w with
  | forwarder => simp only [stepArises, stepReady, forwarderReady, hj, Bool.false_and]
  | roundOpening => simp only [stepArises, stepReady, openingReady, hj, Bool.false_and]
  | tally => simp only [stepArises, stepReady, tallyReady, hj, Bool.false_and]
  | _ => exact stepStands_beforeJoin hj ho hw

/-- A CONFIGURE in hand before JOIN is made next when the write queue is empty (R126, R137). -/
theorem granted_configure {c : ConfigRecord} {m : BitVec 16} {j : StationSet} (hu : isUp s = true)
    (hs : s.tp.station = .unconfigured ∨ s.tp.station = .configured) (hh : s.tp.hand = some (.configure c m j))
    (hq : s.ps.queue = []) : granted (settleWaiting s) = some .configure := by
  have hj : isJoined s = false := by rcases hs with hs | hs <;> simp [isJoined, hs]
  have ho : isOpen s = false := by rcases hs with hs | hs <;> simp [isOpen, hs]
  have hc : stepStands s .configure = true := by simp only [stepStands, hu, hh, Bool.and_self]
  refine granted_settleWaiting hc hq (fun x hx => ?_) ?_
  · by_contra hw
    rcases mem_standing hx with h | h
    · rw [stepStands_beforeJoin hj ho hw] at h; cases h
    · rw [stepArises_beforeJoin hj ho hw] at h; cases h
  · obtain ⟨x, hx, -⟩ := mem_standing_of_arises (w := .configure) (by simp [waitCandidates]) hc
    exact List.ne_nil_of_mem hx

/-- The command in hand of a CONFIGURE that passed its tests (R171). -/
def configureHand (s : State) (p : ConfigParams) : Hand :=
  let c := settleConfig s p
  .configure c (clampedMap (askedConfig p) c) (joiningMembers s c)

/-- A CONFIGURE that passes its tests has its record made at the take when the write queue is empty (R126, R137). -/
theorem takeConfigure_made {p : ConfigParams} (hu : isUp s = true)
    (hs : s.tp.station = .unconfigured ∨ s.tp.station = .configured) (ht : configureTests s p = none)
    (hq : s.ps.queue = []) : takeConfigure p s = settleWaiting
      (makeConfigure (settleConfig s p) (clampedMap (askedConfig p) (settleConfig s p)) (joiningMembers s (settleConfig s p))
        (leaveWaiting .configure (settleWaiting (handTo (configureHand s p) s)))) := by
  have hg := (isGranted_iff _ _).2 (granted_configure (s := handTo (configureHand s p) s) hu hs rfl hq)
  simp only [takeConfigure, ht]
  exact if_pos hg

/-- CONFIGURE taken by an idle port before JOIN passes the station-state test (R169). -/
theorem exec_configure_beforeJoin (seq : Byte) (p : ConfigParams) (hi : idlePort s)
    (hs : s.tp.station = .unconfigured ∨ s.tp.station = .configured) :
    exec (.configure seq p) s = .next (settleWaiting (takeConfigure p (takeCommand 0x01 seq s))) := by
  have hc : configureTest (takeCommand 0x01 seq s) = none := by rcases hs with hs | hs <;> simp [configureTest, hs]
  show execConfigure seq p s = _
  rw [execConfigure, intake_of_idle _ _ _ _ hi, tested_of_none _ _ _ hc]

/-- The state in which a CONFIGURE in hand is made: it has left the waiting order (R126). -/
def configureTurn (seq : Byte) (h : Hand) (s : State) : State :=
  leaveWaiting .configure (settleWaiting (handTo h (takeCommand 0x01 seq s)))

variable (s) (c : ConfigRecord) (m : BitVec 16) (j : StationSet)

/-- The record of CONFIGURE sets the live day of a store without one, and the members that join are in the tallies-sent set
(R137, R171). -/
theorem makeConfigure_tu : (makeConfigure c m j s).tu = { s.tu with
    liveDay := if s.ps.store.liveDay = none then some c.startDay else s.tu.liveDay
    round := { s.tu.round with sent := s.tu.round.sent ||| j } } := by
  simp only [makeConfigure, makeRecord_tu, handTo_tu, Option.isNone_iff_eq_none]

/-- The one record of CONFIGURE (R137, R171). -/
theorem oneRecord_makeConfigure : oneRecord s (makeConfigure c m j s)
    (.config c :: (if s.ps.store.liveDay = none then [.liveDay c.startDay] else []) ++
      if j = 0 then [] else [.roundPart { s.tu.round with sent := s.tu.round.sent ||| j }]) [.configured m] := by
  simp only [oneRecord, makeConfigure, makeRecord_ps, handTo_ps, Option.isNone_iff_eq_none]
  rfl

/-- The waiting order brought up to date makes no record. -/
theorem oneRecord_settleWaiting {s t : State} {us : List AreaUpdate} {ds : List Dependent} (h : oneRecord s t us ds) :
    oneRecord s (settleWaiting t) us ds := by
  unfold oneRecord at h ⊢
  rw [settleWaiting_ps, h]

/-- What the record of CONFIGURE, made in its turn, leaves of the state at the take (R137, R171, R184). -/
theorem makeConfigure_inTurn (seq : Byte) (h : Hand) {t : State}
    (ht : t = settleWaiting (settleWaiting (makeConfigure c m j (configureTurn seq h s)))) :
    t.tp = { handed s 0x01 seq .configureMade with config := c, divisor := c.divisor, refCount := 0 } ∧
      t.tu = { s.tu with
        liveDay := if s.ps.store.liveDay = none then some c.startDay else s.tu.liveDay
        round := { s.tu.round with sent := s.tu.round.sent ||| j } } ∧
      oneRecord s t (.config c :: (if s.ps.store.liveDay = none then [.liveDay c.startDay] else []) ++
        if j = 0 then [] else [.roundPart { s.tu.round with sent := s.tu.round.sent ||| j }]) [.configured m] ∧
      t = { s with tp := t.tp, tu := t.tu, ps := t.ps } := by
  subst ht
  have hr := oneRecord_settleWaiting (oneRecord_settleWaiting (oneRecord_makeConfigure (configureTurn seq h s) c m j))
  exact ⟨rfl, makeConfigure_tu (configureTurn seq h s) c m j, hr, rfl⟩

end Configure

/-- Settles O27: with the write queue empty CONFIGURE's turn comes at its take, and its record is made there. -/
theorem configureTaken : Obligations.ConfigureTaken := by
  rintro s seq p c joining hi hs ht hq rfl rfl
  refine ⟨_, exec_configure_beforeJoin seq p hi hs, makeConfigure_inTurn s _ _ _ seq (configureHand (takeCommand 0x01 seq s) p) ?_⟩
  rw [takeConfigure_made (s := takeCommand 0x01 seq s) hi.1 hs ht hq]
  rfl

end Sys2Proof.Machine

/-! ## The write queue and the store's areas (R123 to R126)

`Posted p₀ n p`: the Posting Store can come from `p₀` to `p` by posting records and by its waiting order, no area of the store
changed; and if the places of `p₀` are within 8, those of `p` are, with `n` of them neither filled nor held. A step that has left
the waiting order from the place held for it finds one such place for its record. -/
namespace Sys2Proof.Machine
open Safety

/-- The places law of the write queue, with this many places neither filled nor held (R124 to R126). -/
structure HasRoom (n : Nat) (p : Ps) : Prop where
  places : p.queue.length + heldPlaces p.waiting + n ≤ 8
  sizes : ∀ r ∈ p.queue, 1 ≤ r.updates.length ∧ r.updates.length ≤ 4

theorem writeQueueLaw_iff (s : State) : writeQueueLaw s ↔ HasRoom 0 s.ps :=
  ⟨fun ⟨hp, hs⟩ => ⟨hp, hs⟩, fun ⟨hp, hs⟩ => ⟨hp, hs⟩⟩

/-- What any command but a completion does to the Posting Store. -/
structure Posted (p₀ : Ps) (n : Nat) (p : Ps) : Prop where
  areas : { p.store with torn := false } = { p₀.store with torn := false }
  room : HasRoom 0 p₀ → HasRoom n p

section Rules
variable {p₀ p : Ps} {m n : Nat}

theorem HasRoom.weaken (h : HasRoom n p) (hm : m ≤ n) : HasRoom m p :=
  ⟨(Nat.add_le_add_left hm _).trans h.places, h.sizes⟩

theorem Posted.refl (p : Ps) : Posted p 0 p := ⟨rfl, id⟩

theorem Posted.weaken (h : Posted p₀ n p) (hm : m ≤ n) : Posted p₀ m p := ⟨h.areas, fun h₀ => (h.room h₀).weaken hm⟩

/-- The places an emptied queue leaves (R130, R132). -/
theorem Posted.emptied (ha : { p.store with torn := false } = { p₀.store with torn := false }) (hq : p.queue = [])
    (hw : p.waiting = []) : Posted p₀ 0 p :=
  ⟨ha, fun _ => ⟨by simp [hq, hw, heldPlaces], by simp [hq]⟩⟩

/-- Records with the same area updates take the same places (R41, R59, R69). -/
theorem Posted.sameUpdates {q : List PostingRecord} (h : Posted p₀ n p)
    (hq : q.map (·.updates) = p.queue.map (·.updates)) : Posted p₀ n { p with queue := q } := by
  refine ⟨h.areas, fun h₀ => ?_⟩
  obtain ⟨hp, hs⟩ := h.room h₀
  have hl : q.length = p.queue.length := by simpa using congrArg List.length hq
  refine ⟨by rw [hl]; exact hp, fun r hr => ?_⟩
  obtain ⟨r', hr', he⟩ := List.mem_map.1 (hq ▸ List.mem_map_of_mem hr : r.updates ∈ p.queue.map (·.updates))
  exact he ▸ hs r' hr'

/-- A record of one to four updates fills a place that is neither filled nor held (R124 to R126). -/
theorem Posted.append {r : PostingRecord} {k : Nat} (h : Posted p₀ (n + 1) p)
    (hu : 1 ≤ r.updates.length ∧ r.updates.length ≤ 4) :
    Posted p₀ n { p with queue := p.queue ++ [r], timer := k } := by
  refine ⟨h.areas, fun h₀ => ?_⟩
  obtain ⟨hp, hs⟩ := h.room h₀
  refine ⟨?_, fun x hx => ?_⟩
  · simp only [List.length_append, List.length_singleton]; omega
  · rcases List.mem_append.1 hx with hx | hx
    · exact hs x hx
    · exact List.mem_singleton.1 hx ▸ hu

end Rules

/-! ### The waiting order (R126) -/

section Waiting
variable {p₀ : Ps} {n : Nat} {s : State}

theorem heldPlaces_filter_le (f : Waiting → Bool) (l : List Waiting) : heldPlaces (l.filter f) ≤ heldPlaces l :=
  List.Sublist.countP_le List.filter_sublist

/-- A step that comes to wait holds no place yet, and one that is not ready gives its place up (R126; log 36). -/
theorem heldPlaces_standing_le (s : State) : heldPlaces (standing s) ≤ heldPlaces s.ps.waiting := by
  have harisen : ∀ l : List WaitStep, (l.map fun w => Waiting.mk w false).countP (·.held) = 0 := fun l => by
    simp [List.countP_map, List.countP_eq_zero]
  refine le_trans ?_ (heldPlaces_filter_le (fun w => stepStands s w.step) s.ps.waiting)
  simp only [standing, heldPlaces, List.countP_append, harisen, Nat.add_zero, List.countP_map]
  refine List.countP_mono_left fun w _ hw => ?_
  exact ((Bool.and_eq_true _ _).mp hw).1

/-- At the end of an event the places held are free ones (R126). -/
theorem posted_settleWaiting (h : Posted p₀ n s.ps) : Posted p₀ 0 (settleWaiting s).ps := by
  refine ⟨h.areas, fun h₀ => ?_⟩
  obtain ⟨hp, hs⟩ := h.room h₀
  refine ⟨?_, hs⟩
  have hst := heldPlaces_standing_le s
  have hg := heldPlaces_give s (Config.records - s.ps.queue.length - heldPlaces (standing s)) (standing s)
  have h8 : Config.records = 8 := rfl
  show s.ps.queue.length + heldPlaces (givePlaces s _ (standing s)) + 0 ≤ 8
  omega

theorem posted_leaveWaiting (h : Posted p₀ n s.ps) (w : WaitStep) : Posted p₀ n (leaveWaiting w s).ps := by
  refine ⟨h.areas, fun h₀ => ?_⟩
  obtain ⟨hp, hs⟩ := h.room h₀
  have hl := heldPlaces_filter_le (fun x => x.step != w) s.ps.waiting
  refine ⟨?_, hs⟩
  show s.ps.queue.length + heldPlaces (s.ps.waiting.filter _) + n ≤ 8
  omega

/-- A step made next leaves the place held for it to its record (R126). -/
theorem posted_granted {w : WaitStep} (h : Posted p₀ 0 s.ps) (hg : isGranted s w = true) :
    Posted p₀ 1 (leaveWaiting w s).ps := by
  obtain ⟨-, x, hx, rfl, hh⟩ := granted_held ((isGranted_iff s w).1 hg)
  have hl := heldPlaces_leave hx hh
  refine ⟨h.areas, fun h₀ => ?_⟩
  obtain ⟨hp, hs⟩ := h.room h₀
  refine ⟨?_, hs⟩
  show s.ps.queue.length + heldPlaces (s.ps.waiting.filter _) + 1 ≤ 8
  omega

theorem posted_makeRecord (h : Posted p₀ (n + 1) s.ps) {us : List AreaUpdate} (hu : 1 ≤ us.length ∧ us.length ≤ 4)
    (ds : List Dependent) : Posted p₀ n (makeRecord us ds s).ps := h.append hu

theorem posted_recordWithAnswer (h : Posted p₀ (n + 1) s.ps) {us : List AreaUpdate} (hu : 1 ≤ us.length ∧ us.length ≤ 4)
    (d : Station) (b : Body) : Posted p₀ n (recordWithAnswer us d b s).ps := h.append hu

theorem posted_answerAfterRecords (h : Posted p₀ n s.ps) (d : Station) (b : Body) :
    Posted p₀ n (answerAfterRecords d b s).ps := by
  unfold answerAfterRecords
  split
  · exact h
  · exact h.sameUpdates (attachYoungest_updates _ _)

theorem posted_secondNotice (h : Posted p₀ n s.ps) (l : LiveHold) (m : Notice) (asked : Nat) :
    Posted p₀ n (secondNotice l m asked s).ps := by
  unfold secondNotice
  split
  · exact h.sameUpdates (attachAfterGranted_updates _ _ _)
  · exact h

theorem posted_withdrawRequest (h : Posted p₀ n s.ps) (k : Nat) (g : Tag) : Posted p₀ n (withdrawRequest k g s).ps := by
  unfold withdrawRequest
  split
  · exact h.sameUpdates (by simp)
  · exact h

end Waiting

/-! ### Operations that leave the Posting Store -/

section Frame
variable (s : State)

theorem ps_foldl {α : Type} (f : State → α → State) (h : ∀ s a, (f s a).ps = s.ps) (l : List α) (s : State) :
    (l.foldl f s).ps = s.ps := by
  induction l generalizing s with
  | nil => rfl
  | cons a l ih => rw [List.foldl_cons, ih, h]

@[simp] theorem ps_answerNow (d : Station) (b : Body) : (answerNow d b s).ps = s.ps := rfl

@[simp] theorem ps_restartComputation : (restartComputation s).ps = s.ps := by
  unfold restartComputation
  split <;> rfl

@[simp] theorem ps_fileActor (home : Station) (p : FilePos) (amount : Nat) (day : Day) :
    (fileActor home p amount day s).1.ps = s.ps := by rw [fileActor_only]

@[simp] theorem ps_applyCapture (src : Station) (g : Tag) (kind : TagKind) (k amount : Nat) :
    (applyCapture src g kind k amount s).ps = s.ps := rfl
@[simp] theorem ps_applyLoad (src : Station) (g : Tag) (k amount : Nat) : (applyLoad src g k amount s).ps = s.ps := rfl
@[simp] theorem ps_applyReturn (src : Station) (g o : Tag) (k amount : Nat) :
    (applyReturn src g o k amount s).ps = s.ps := rfl

@[simp] theorem ps_announce (src : Station) (g : Tag) : (announce src g s).ps = s.ps := by
  unfold announce
  split <;> rfl

@[simp] theorem ps_decideHold (src : Station) (g : Tag) (card : CardNo) (check : Check) (amount : Nat) (split : Bool) :
    (decideHold src g card check amount split s).ps = s.ps := by
  simp only [decideHold]
  (repeat' split) <;> rfl

@[simp] theorem ps_decideDrop (src : Station) (g : Tag) (id : HoldId) : (decideDrop src g id s).ps = s.ps := by
  unfold decideDrop
  (repeat' split) <;> rfl

/-! Slots -/

@[simp] theorem ps_sendDrop (sl : Slot) : (sendDrop sl s).ps = s.ps := by
  unfold sendDrop
  (repeat' split) <;> rfl

@[simp] theorem ps_releaseHeld (n : Nat) (sl : Slot) (o : NoticeOutcome) : (releaseHeld n sl o s).ps = s.ps := by
  simp [releaseHeld]

@[simp] theorem ps_tagInquiry (n : Nat) (sl : Slot) : (tagInquiry n sl s).ps = s.ps := by
  unfold tagInquiry
  split <;> rfl

@[simp] theorem ps_redeemUnanswered (n : Nat) (sl : Slot) (m : Notice) : (redeemUnanswered n sl m s).ps = s.ps := by
  unfold redeemUnanswered
  split <;> rfl

@[simp] theorem ps_noAnswer (n : Nat) (sl : Slot) : (noAnswer n sl s).ps = s.ps := by
  unfold noAnswer
  split <;> simp

@[simp] theorem ps_fileStep (n : Nat) (sl : Slot) (p : FilePos) (amount : Nat) (day : Option Day) (m : Notice) :
    (fileStep n sl p amount day m s).ps = s.ps := rfl
@[simp] theorem ps_slotHeld (n : Nat) (sl : Slot) (id : HoldId) (grant avail : Nat) (b : Bool) :
    (slotHeld n sl id grant avail b s).ps = s.ps := rfl

@[simp] theorem ps_slotClaimNo (n : Nat) (sl : Slot) (r : Reason) : (slotClaimNo n sl r s).ps = s.ps := by
  unfold slotClaimNo
  split <;> simp

@[simp] theorem ps_slotBalance (n : Nat) (sl : Slot) (c : CardState) (bal avail : Nat) (q : TagResult) :
    (slotBalance n sl c bal avail q s).ps = s.ps := by
  unfold slotBalance
  split <;> rfl

@[simp] theorem ps_slotAnswer (n : Nat) (sl : Slot) (b : Body) : (slotAnswer n sl b s).ps = s.ps := by
  unfold slotAnswer
  (repeat' split) <;> simp

@[simp] theorem ps_confirmSlot (g : Tag) (amount : Nat) : (confirmSlot g amount s).ps = s.ps := by
  simp only [confirmSlot]
  (repeat' split) <;> simp

@[simp] theorem ps_cancelSlot (g : Tag) : (cancelSlot g s).ps = s.ps := by
  unfold cancelSlot
  split <;> simp

@[simp] theorem ps_enterDues (n : Nat) : (enterDues n s).ps = s.ps := by
  induction n generalizing s with
  | zero => rfl
  | succ n ih =>
    unfold enterDues
    split
    · rw [ih, enterDue_ps]
    · rfl

/-! The settlement round -/

@[simp] theorem ps_takeSettle (d : Day) : (takeSettle d s).ps = s.ps := by
  unfold takeSettle
  (repeat' split) <;> rfl

@[simp] theorem ps_tallyOpenArrives (src : Station) (d : Day) : (tallyOpenArrives src d s).ps = s.ps := by
  unfold tallyOpenArrives
  (repeat' split) <;> rfl

@[simp] theorem ps_comparePeer (st : Station) : (comparePeer st s).ps = s.ps := by
  unfold comparePeer
  split <;> rfl

@[simp] theorem ps_cutShortPeer (before : StationSet) (st : Station) : (cutShortPeer before s st).ps = s.ps := by
  unfold cutShortPeer
  split <;> simp

@[simp] theorem ps_takeRecount : (takeRecount s).ps = s.ps := by
  unfold takeRecount
  (repeat' split) <;> rfl

/-! Till commands -/

@[simp] theorem ps_joined : (joined s).ps = s.ps := by
  unfold joined resumeRound
  (repeat' split) <;> rfl

@[simp] theorem ps_routeHomeOp (card : CardNo) (op : HomeOp) : (routeHomeOp card op s).ps = s.ps := by
  unfold routeHomeOp
  split <;> rfl

@[simp] theorem ps_routeCard (own : LocalReq) (r : OpenReq) : (routeCard own r s).ps = s.ps := by
  unfold routeCard routeForeign
  (repeat' split) <;> rfl

@[simp] theorem ps_routeConfirm (g : Tag) (amount : Nat) : (routeConfirm g amount s).ps = s.ps := by
  unfold routeConfirm
  (repeat' split) <;> simp

@[simp] theorem ps_routeCancel (g : Tag) : (routeCancel g s).ps = s.ps := by
  unfold routeCancel
  split <;> simp

@[simp] theorem ps_takeNotice : (takeNotice s).ps = s.ps := by
  unfold takeNotice
  split <;> simp

/-! Release and store fault -/

@[simp] theorem ps_enteredHold (g : Tag) : (enteredHold s g).ps = s.ps := by
  unfold enteredHold
  split <;> rfl

@[simp] theorem ps_releasePlaced (n : Notice) : (releasePlaced n s).ps = s.ps := by
  unfold releasePlaced
  split <;> simp

@[simp] theorem ps_releaseSlotFrame (n : Nat) (g : Tag) (d : Station) (b : Body) :
    (releaseSlotFrame n g d b s).ps = s.ps := by
  unfold releaseSlotFrame
  (repeat' split) <;> rfl

@[simp] theorem ps_releaseDqFrame (d : Station) (b : Body) : (releaseDqFrame d b s).ps = s.ps := by
  unfold releaseDqFrame
  split <;> rfl

@[simp] theorem ps_releasePayout (d : Day) : (releasePayout d s).ps = s.ps := by
  unfold releasePayout
  split <;> rfl

@[simp] theorem ps_releaseOpened (d : Day) (b : Bool) : (releaseOpened d b s).ps = s.ps := by
  unfold releaseOpened
  split <;> rfl

@[simp] theorem ps_release (d : Dependent) : (release d s).ps = s.ps := by
  unfold release
  split <;> simp

@[simp] theorem ps_releaseAll (ds : List Dependent) : (releaseAll ds s).ps = s.ps :=
  ps_foldl _ (fun t d => ps_release t d) ds s

@[simp] theorem ps_faultDependent (d : Dependent) : (faultDependent s d).ps = s.ps := by
  unfold faultDependent
  (repeat' split) <;> rfl

@[simp] theorem ps_faultHold (e : Nat × LiveHold) : (faultHold s e).ps = s.ps := by
  unfold faultHold
  simp only
  split <;> rfl

@[simp] theorem ps_faultSlot (n : Nat) : (faultSlot s n).ps = s.ps := by
  unfold faultSlot
  (repeat' split) <;> rfl

@[simp] theorem ps_faultSlots : (faultSlots s).ps = s.ps :=
  (ps_foldl _ ps_faultSlot _ _).trans (ps_enterDues _ _)

@[simp] theorem ps_faultDq : (faultDq s).ps = s.ps := rfl
@[simp] theorem ps_faultTu : (faultTu s).ps = s.ps := rfl

@[simp] theorem ps_faultTp : (faultTp s).ps = s.ps := by
  simp only [faultTp]
  split <;> rfl

/-- The store fault leaves nothing queued and the record under way torn (R128 to R130). -/
theorem ps_storeFaulted : (storeFaulted s).ps = (tearWrite s).ps := by
  simp only [storeFaulted, ps_faultTp, ps_faultTu, ps_faultDq, ps_faultSlots, ps_foldl _ ps_faultHold,
    ps_foldl _ ps_faultDependent]

end Frame

end Sys2Proof.Machine

/-! ## Operations that post records (R124 to R126)

Each leaves a Posting Store as `Posted` says; one that makes a record starts from a place neither filled nor held. -/
namespace Sys2Proof.Machine
open Safety

section Records
variable {p₀ : Ps} {s : State}

/-! ### Takes of the Card Table Unit (R37 to R61) -/

section Line
variable (h : Posted p₀ 0 s.ps) (h1 : isHalted s = false → Posted p₀ 1 s.ps)
include h h1

theorem posted_decideClaim (src : Station) (g : Tag) (card : CardNo) (id : HoldId) (amount : Nat) (retry : Bool) :
    Posted p₀ 0 (decideClaim src g card id amount retry s).ps := by
  simp only [decideClaim]
  split
  · exact h
  · split
    · split
      · exact h
      · split
        · exact h
        · next hh =>
          split
          · exact posted_answerAfterRecords h ..
          · split
            · exact h
            · exact posted_recordWithAnswer (by simpa using h1 (Bool.eq_false_iff.2 hh)) (by simp) ..
    · split
      · exact h
      · split
        · exact posted_answerAfterRecords h ..
        · exact h

theorem posted_decideLoad (src : Station) (g : Tag) (card : CardNo) (check : Check) (amount : Nat) :
    Posted p₀ 0 (decideLoad src g card check amount s).ps := by
  simp only [decideLoad]
  split
  · exact h
  · split
    · exact h
    · next hh =>
      split
      · exact posted_answerAfterRecords h ..
      · split
        · exact h
        · exact posted_recordWithAnswer (by simpa using h1 (Bool.eq_false_iff.2 hh)) (by simp) ..

theorem posted_decideReturn (src : Station) (g : Tag) (card : CardNo) (o : Tag) (amount : Nat) :
    Posted p₀ 0 (decideReturn src g card o amount s).ps := by
  simp only [decideReturn]
  split
  · exact h
  · split
    · exact h
    · next hh =>
      split
      · exact posted_answerAfterRecords h ..
      · split
        · exact h
        · exact posted_recordWithAnswer (by simpa using h1 (Bool.eq_false_iff.2 hh)) (by simp) ..

omit h in
theorem posted_applyPost (hh : isHalted s = false) (src : Station) (g : Tag) (k amount taken : Nat) (r : Reason) :
    Posted p₀ 0 (applyPost src g k amount taken r s).ps := by
  simp only [applyPost]
  split
  · exact posted_recordWithAnswer (by simpa using h1 hh) (by simp) ..
  · exact posted_recordWithAnswer (by simpa using h1 hh) (by simp) ..

theorem posted_decidePost (src : Station) (g : Tag) (card : CardNo) (check : Check) (amount : Nat) :
    Posted p₀ 0 (decidePost src g card check amount s).ps := by
  simp only [decidePost]
  split
  · exact h
  · split
    · split
      · exact h
      · exact posted_answerAfterRecords h ..
    · split
      · split
        · exact h
        · next hh =>
          simp only [Bool.or_eq_true, not_or, Bool.not_eq_true] at hh
          exact posted_applyPost h1 hh.1 ..
      · split
        · exact h
        · next hh => exact posted_applyPost h1 (Bool.eq_false_iff.2 hh) ..

end Line

theorem posted_decideInquire (h : Posted p₀ 0 s.ps) (src : Station) (g : Tag) (card : CardNo) (check : Check)
    (asked : Option Tag) : Posted p₀ 0 (decideInquire src g card check asked s).ps := by
  simp only [decideInquire]
  split
  · exact h
  · split
    · split <;> exact h
    · exact posted_answerAfterRecords h ..

section Made
variable (h : Posted p₀ 1 s.ps)
include h

/-- A step that is refused makes no record. -/
theorem posted_refuse (r : Reason) : Posted p₀ 0 (refuse r s).ps := h.weaken (Nat.zero_le _)

theorem posted_takeHomeOp (op : HomeOp) : Posted p₀ 0 (takeHomeOp op s).ps := by
  unfold takeHomeOp
  split
  · exact posted_refuse h _
  · simp only
    split
    · exact posted_refuse h _
    · exact posted_makeRecord (by simpa using h) (by simp) _

theorem posted_takeLocalLoad (card : CardNo) (check : Check) (amount : Nat) :
    Posted p₀ 0 (takeLocalLoad card check amount s).ps := by
  simp only [takeLocalLoad]
  split
  · exact posted_refuse h _
  · split
    · exact posted_refuse h _
    · exact posted_makeRecord (by simpa using h) (by simp) _

theorem posted_takeLocalRedeem (card : CardNo) (check : Check) (amount : Nat) (split : Bool) :
    Posted p₀ 0 (takeLocalRedeem card check amount split s).ps := by
  simp only [takeLocalRedeem]
  split
  · exact posted_refuse h _
  · split
    · exact posted_refuse h _
    · split
      · exact posted_refuse h _
      · exact posted_makeRecord (by simpa using h) (by simp) _

theorem posted_takeLocalReturn (card : CardNo) (o : Tag) (amount : Nat) :
    Posted p₀ 0 (takeLocalReturn card o amount s).ps := by
  simp only [takeLocalReturn]
  split
  · exact posted_refuse h _
  · split
    · exact posted_refuse h _
    · exact posted_makeRecord (by simpa using h) (by simp) _

theorem posted_takeLocalInquire (card : CardNo) (check : Check) (asked : Option Tag) :
    Posted p₀ 0 (takeLocalInquire card check asked s).ps := by
  simp only [takeLocalInquire]
  split
  · exact posted_refuse h _
  · split
    · exact posted_refuse h _
    · exact posted_makeRecord (by simpa using h) (by simp) _

theorem posted_takeLocalConfirm (g : Tag) (amount : Nat) : Posted p₀ 0 (takeLocalConfirm g amount s).ps := by
  simp only [takeLocalConfirm]
  split
  · exact posted_refuse h _
  · split
    · exact posted_refuse h _
    · exact posted_makeRecord (by simpa using h) (by simp) _

end Made

theorem posted_takeLocalCancel (h : Posted p₀ 0 s.ps) (g : Tag) : Posted p₀ 0 (takeLocalCancel g s).ps := by
  unfold takeLocalCancel
  split
  · exact h
  · exact posted_secondNotice (s := freeEntry ..) h ..

/-- A local request that needs a place has one, and the others make no record (R58). -/
theorem posted_takeLocal (h : Posted p₀ 0 s.ps) {r : LocalReq} (h1 : localNeedsRecord r = true → Posted p₀ 1 s.ps) :
    Posted p₀ 0 (takeLocal r s).ps := by
  cases r with
  | load => exact posted_takeLocalLoad (h1 rfl) ..
  | redeem => exact posted_takeLocalRedeem (h1 rfl) ..
  | ret => exact posted_takeLocalReturn (h1 rfl) ..
  | inquire => exact posted_takeLocalInquire (h1 rfl) ..
  | confirm => exact posted_takeLocalConfirm (h1 rfl) ..
  | cancel => exact posted_takeLocalCancel h _

/-! ### Slots (R68 to R84) -/

/-- A filing writes one pair line, and a late one the closing pair with it (R82, R83). -/
theorem fileActor_length (home : Station) (p : FilePos) (amount : Nat) (day : Day) (s : State) :
    1 ≤ (fileActor home p amount day s).2.length ∧ (fileActor home p amount day s).2.length ≤ 2 := by
  unfold fileActor
  cases filePlace s home day <;> simp only [reduceCtorEq, if_true, if_false]
  · simp
  · simp
  · split <;> simp

theorem posted_joinEntry (h : Posted p₀ 1 s.ps) (n : Nat) (sl : Slot) (e : DeferredEntry) (m : Notice) :
    Posted p₀ 0 (joinEntry n sl e m s).ps := posted_makeRecord (by simpa using h) (by simp) _

theorem posted_performSlotStep (h : Posted p₀ 1 s.ps) (n : Nat) : Posted p₀ 0 (performSlotStep n s).ps := by
  have h0 := h.weaken (Nat.zero_le 1)
  unfold performSlotStep
  split
  · exact h0
  · split
    · exact h0
    · split
      · exact h0
      · exact posted_joinEntry h ..
    · exact posted_joinEntry h ..
    · exact posted_joinEntry h ..
    · refine posted_makeRecord ?_ ⟨(fileActor_length ..).1, (fileActor_length ..).2.trans (by decide)⟩ _
      rw [putSlot_ps, ps_fileActor]
      exact h

theorem posted_stepIfGranted (h : Posted p₀ 0 s.ps) (n : Nat) : Posted p₀ 0 (stepIfGranted n s).ps := by
  unfold stepIfGranted
  split
  · next hg => exact posted_settleWaiting (posted_performSlotStep (posted_granted h hg) n)
  · exact h

theorem posted_trySlot (h : Posted p₀ 0 s.ps) (n : Nat) : Posted p₀ 0 (trySlot n s).ps :=
  posted_stepIfGranted (posted_settleWaiting h) n

theorem posted_lineNoAnswer (h : Posted p₀ 0 s.ps) (n : Nat) : Posted p₀ 0 (lineNoAnswer s n).ps := by
  unfold lineNoAnswer
  split
  · split
    · refine posted_trySlot ?_ n
      rw [ps_noAnswer]
      exact posted_withdrawRequest h ..
    · exact h
  · exact h

theorem posted_foldl {α : Type} {f : State → α → State} (hf : ∀ s a, Posted p₀ 0 s.ps → Posted p₀ 0 (f s a).ps)
    (l : List α) (h : Posted p₀ 0 s.ps) : Posted p₀ 0 (l.foldl f s).ps := by
  induction l generalizing s with
  | nil => exact h
  | cons a l ih => exact ih (hf s a h)

theorem posted_lineFails (h : Posted p₀ 0 s.ps) (l : LineState) : Posted p₀ 0 (lineFails l s).ps :=
  posted_foldl (fun _ n ht => posted_lineNoAnswer ht n) _ h

theorem posted_takeOpening (h : Posted p₀ 1 s.ps) (r : OpenReq) : Posted p₀ 0 (takeOpening r s).ps := by
  simp only [takeOpening]
  split
  · exact posted_refuse h _
  · split
    · exact posted_refuse h _
    · split
      · refine posted_trySlot ?_ _
        rw [ps_noAnswer]
        exact posted_makeRecord (by simpa using h) (by simp) _
      · exact posted_makeRecord (by simpa using h) (by simp) _

/-! ### Deferred Queue (R92 to R101) -/

theorem posted_performDqStep (h : Posted p₀ 1 s.ps) : Posted p₀ 0 (performDqStep s).ps := by
  unfold performDqStep
  split
  · split
    · exact posted_makeRecord (by simpa using h) (by simp) _
    · exact posted_makeRecord (by simpa using h) (by simp) _
    · simp only
      split
      · refine posted_makeRecord ?_ ?_ _
        · rw [ps_fileActor]
          exact h
        · exact ⟨Nat.succ_pos _, Nat.succ_le_succ ((fileActor_length ..).2.trans (by decide : 2 ≤ 3))⟩
      · exact posted_makeRecord (by simpa using h) (by simp) _
  · exact h.weaken (Nat.zero_le _)

theorem posted_dqStepIfGranted (h : Posted p₀ 0 s.ps) : Posted p₀ 0 (dqStepIfGranted s).ps := by
  unfold dqStepIfGranted
  split
  · next hg => exact posted_settleWaiting (posted_performDqStep (posted_granted h hg))
  · exact h

theorem posted_dqDecide (h : Posted p₀ 0 s.ps) (w : DqStep) : Posted p₀ 0 (dqDecide w s).ps := by
  refine posted_dqStepIfGranted (posted_settleWaiting (n := 0) ?_)
  exact h

theorem posted_dqAnswer (h : Posted p₀ 0 s.ps) (e : DeferredEntry) (b : Body) : Posted p₀ 0 (dqAnswer e b s).ps := by
  have hb (home : Station) (l : BackoffLine) (w : DqStep) : Posted p₀ 0 (dqDecide w (putBackoff home l s)).ps :=
    posted_dqDecide (s := putBackoff home l s) h w
  unfold dqAnswer
  split
  · exact h
  · exact hb ..
  · exact hb ..
  · exact hb ..
  · split <;> exact hb ..
  · exact h

theorem posted_offerAnswer (h : Posted p₀ 0 s.ps) (src : Station) (b : Body) : Posted p₀ 0 (offerAnswer src b s).ps := by
  unfold offerAnswer
  split
  · refine posted_trySlot ?_ _
    rw [ps_slotAnswer]
    exact h
  · split
    · exact posted_dqAnswer h ..
    · exact h

theorem posted_forward (h : Posted p₀ 1 s.ps) (e : DeferredEntry) : Posted p₀ 0 (forward e s).ps :=
  posted_makeRecord (by simpa using h) (by simp) _

theorem posted_takeRefund (h : Posted p₀ 1 s.ps) (card : CardNo) (g : Tag) (amount : Nat) :
    Posted p₀ 0 (takeRefund card g amount s).ps := by
  unfold takeRefund
  split
  · exact posted_takeOpening h _
  · split
    · exact posted_refuse h _
    · exact posted_makeRecord (by simpa using h) (by simp) _

/-! ### The settlement round (R143 to R151) -/

theorem posted_openRound (h : Posted p₀ 1 s.ps) (o : Opening) : Posted p₀ 0 (openRound o s).ps := by
  refine posted_makeRecord ?_ (by simp) _
  exact h

/-- A tally step finds a place when its peer is still to be added to the tallies-sent set (R145). -/
theorem posted_tallyTo (h : Posted p₀ 0 s.ps) {st : Station} (h1 : inSet s.tu.round.sent st = false → Posted p₀ 1 s.ps)
    (rest : List Station) : Posted p₀ 0 (tallyTo st rest s).ps := by
  simp only [tallyTo]
  split
  · exact h
  · next hs =>
    refine posted_makeRecord ?_ (by simp) _
    rw [reserve_ps, ps_comparePeer]
    exact h1 (Bool.eq_false_iff.2 hs)

theorem posted_tallyArrives (h : Posted p₀ 0 s.ps) (src : Station) (d : Day) (b : PairLine) :
    Posted p₀ 0 (tallyArrives src d b s).ps := by
  unfold tallyArrives
  split
  · refine posted_leaveWaiting ?_ _
    exact h
  · exact h

theorem posted_receive (h : Posted p₀ 1 s.ps) (i : Inbound) : Posted p₀ 0 (receive i s).ps := by
  simp only [receive]
  split
  · refine posted_makeRecord ?_ (by simp) _
    rw [ps_restartComputation, ps_comparePeer]
    exact h
  · refine posted_makeRecord ?_ (by simp) _
    rw [ps_restartComputation]
    exact h

theorem posted_makePayout (h : Posted p₀ 1 s.ps) (p : PayoutRecord PairState) : Posted p₀ 0 (makePayout p s).ps := by
  refine posted_makeRecord ?_ (by simp) _
  exact h

theorem posted_cutShort (h : Posted p₀ 1 s.ps) : Posted p₀ 0 (cutShort s).ps := by
  refine posted_makeRecord ?_ (by simp) _
  rw [beginComputation_ps, ps_foldl _ fun t st => ps_cutShortPeer t _ st]
  exact h

/-! ### Frames received (R117 to R121) -/

theorem posted_deliver (h : Posted p₀ 0 s.ps) (src : Station) (b : Body) : Posted p₀ 0 (deliver src b s).ps := by
  unfold deliver
  split
  · rw [ps_tallyOpenArrives]
    exact h
  · exact posted_tallyArrives h ..
  · split
    · exact h
    · exact posted_offerAnswer h ..

theorem posted_takenFrame (h : Posted p₀ 0 s.ps) (src dst : Station) (b : Body) :
    Posted p₀ 0 (takenFrame src dst b s).ps := by
  unfold takenFrame
  split
  · split
    · exact posted_lineFails h _
    · exact h
  · split
    · exact h
    · split
      · exact h
      · exact posted_deliver h ..

/-! ### CONFIGURE (R137) -/

theorem posted_makeConfigure (h : Posted p₀ 1 s.ps) (c : ConfigRecord) (m : BitVec 16) (j : StationSet) :
    Posted p₀ 0 (makeConfigure c m j s).ps := by
  refine posted_makeRecord (s := handTo .configureMade _) h ?_ _
  (repeat' split) <;> simp

theorem posted_tryConfigure (h : Posted p₀ 0 s.ps) : Posted p₀ 0 (tryConfigure s).ps := by
  unfold tryConfigure
  split
  · split
    · next hg => exact posted_settleWaiting (posted_makeConfigure (posted_granted h hg) ..)
    · exact h
  · exact h

theorem posted_takeConfigure (h : Posted p₀ 0 s.ps) (p : ConfigParams) : Posted p₀ 0 (takeConfigure p s).ps := by
  unfold takeConfigure
  split
  · exact h
  · exact posted_tryConfigure (posted_settleWaiting (s := handTo _ s) h)

/-! ### Start-up, supply and the store fault (R128 to R132, R138, R174, R175) -/

theorem posted_startUpSteps (ha : { s.ps.store with torn := false } = { p₀.store with torn := false }) (c : Cause) :
    Posted p₀ 0 (startUpSteps c s).ps := .emptied ha rfl rfl

theorem posted_stopped (h : Posted p₀ 0 s.ps) : Posted p₀ 0 (stopped s).ps := .emptied h.areas rfl rfl

theorem posted_reloaded (h : Posted p₀ 0 s.ps) : Posted p₀ 0 (reloaded s).ps := .emptied h.areas rfl rfl

theorem posted_storeFaulted (h : Posted p₀ 0 s.ps) : Posted p₀ 0 (storeFaulted s).ps := by
  rw [ps_storeFaulted]
  exact .emptied h.areas rfl rfl

/-- A RESET taken with a write under way leaves its record alone in the queue (R132). -/
theorem posted_beginReset (h : Posted p₀ 0 s.ps) : Posted p₀ 0 (beginReset s).ps := by
  simp only [beginReset]
  split
  · refine posted_startUpSteps ?_ _
    exact h.areas
  · next r rest hq =>
    refine ⟨h.areas, fun h₀ => ⟨?_, fun x hx => ?_⟩⟩
    · show 1 + heldPlaces [] + 0 ≤ 8
      decide
    · cases List.mem_singleton.1 hx
      exact (h.room h₀).sizes r (hq ▸ List.mem_cons_self ..)

end Records

end Sys2Proof.Machine

/-! ## Every command and every step (R123 to R126) -/
namespace Sys2Proof.Machine
open Safety

/-- What holds of a command: it answers a next state, to which the Posting Store can come from `p₀`. -/
def Posts (p₀ : Ps) (o : Host.Outcome State Fault Refusal) : Prop := nextSatisfies o fun t => Posted p₀ 0 t.ps

section Exec
variable {p₀ : Ps} {s : State}

theorem posts_next {t : State} (h : Posted p₀ 0 t.ps) : Posts p₀ (.next t) := nextSatisfies_next.2 h

theorem posts_ite {c : Prop} [Decidable c] {t u : State} (h : c → Posted p₀ 0 t.ps) (h' : ¬ c → Posted p₀ 0 u.ps) :
    Posts p₀ (if c then .next t else .next u) := by
  split
  · next hc => exact posts_next (h hc)
  · next hc => exact posts_next (h' hc)

/-- A step that stands under a condition and ends its event by placing the steps that wait. -/
theorem posts_settled {c : Prop} [Decidable c] {u : State} (hs : Posted p₀ 0 s.ps) (h : c → Posted p₀ 0 u.ps) :
    Posts p₀ (if c then .next (settleWaiting u) else .next s) :=
  posts_ite (fun hc => posted_settleWaiting (h hc)) fun _ => hs

/-- A command write: its work is done on the state with the command taken (R168). -/
theorem posts_intake (h : Posted p₀ 0 s.ps) (code seq : Byte) {work : State → State}
    (hw : ∀ t, Posted p₀ 0 t.ps → Posted p₀ 0 (work t).ps) : Posts p₀ (intake code seq work s) := by
  unfold intake
  split
  · exact posts_next h
  · exact posts_ite (fun _ => h) fun _ => posted_settleWaiting (hw (takeCommand code seq s) h)

theorem posted_tested {test : State → Option Reason} {work : State → State}
    (hw : ∀ t, Posted p₀ 0 t.ps → Posted p₀ 0 (work t).ps) (t : State) (h : Posted p₀ 0 t.ps) :
    Posted p₀ 0 (tested test work t).ps := by
  unfold tested
  split
  · exact h
  · exact hw t h

/-- A command write whose work leaves the Posting Store. -/
theorem posts_plain (h : Posted p₀ 0 s.ps) (code seq : Byte) {test : State → Option Reason} {work : State → State}
    (hw : ∀ t, (work t).ps = t.ps) : Posts p₀ (intake code seq (tested test work) s) :=
  posts_intake h code seq (posted_tested fun t ht => hw t ▸ ht)

theorem posts_completeFrame (h : Posted p₀ 0 s.ps) (src dst : Station) (b : Option Body) :
    Posts p₀ (completeFrame src dst b s) := by
  unfold completeFrame
  split
  · split
    · exact posts_ite (fun _ => h) fun _ => posted_settleWaiting (posted_takenFrame (s := frameEnded s) h src dst _)
    · exact posts_next h
  · exact posts_next h

/-! ### The Card Table Unit (R37, R38) -/

section Takes
variable (h : Posted p₀ 0 s.ps)
include h

theorem posted_popLine : Posted p₀ 0 (popLine s).ps := posted_leaveWaiting (s := passTurn .till _) h _

/-- A request that makes a record is taken in its place (R37, R126). -/
theorem posted_popLine_record (ht : takesLine s = true) (hr : lineRecord s = true) : Posted p₀ 1 (popLine s).ps := by
  simp only [takesLine, hr, Bool.not_true, Bool.false_or, Bool.and_eq_true] at ht
  exact posted_granted (s := s) h ht.2

theorem posted_popLocal : Posted p₀ 0 (popLocal s).ps := posted_leaveWaiting (s := passTurn .line s) h _

/-- A command of the till's that makes a record is taken in its place (R37, R126). -/
theorem posted_popLocal_record (ht : takesLocal s = true) (hr : localRecord s = true) : Posted p₀ 1 (popLocal s).ps := by
  simp only [takesLocal, hr, Bool.not_true, Bool.false_or, Bool.and_eq_true] at ht
  exact posted_granted (s := s) h ht.2

theorem posts_hold : Posts p₀ (execHold s) := by
  unfold execHold
  split
  · refine posts_settled h fun _ => ?_
    rw [ps_decideHold]
    exact posted_popLine h
  · exact posts_next h

theorem posts_drop : Posts p₀ (execDrop s) := by
  unfold execDrop
  split
  · refine posts_settled h fun _ => ?_
    rw [ps_decideDrop]
    exact posted_popLine h
  · exact posts_next h

theorem posts_inquireFrame : Posts p₀ (execInquireFrame s) := by
  unfold execInquireFrame
  split
  · exact posts_settled h fun _ => posted_decideInquire (posted_popLine h) ..
  · exact posts_next h

/-- Outside HALTED-STORE a CLAIM, POST, LOAD or RETURN is taken in its place (R38, R126). -/
theorem posted_popLine_head (ht : takesLine s = true) {f : RxFrame} {rest : List RxFrame} (hx : s.lc.rx = f :: rest)
    (hb : lineNeedsRecord s f.body = !isHalted s) (hh : isHalted s = false) : Posted p₀ 1 (popLine s).ps :=
  posted_popLine_record h ht (by simp only [lineRecord, hx, hb, hh, Bool.not_false])

theorem posted_announced (src : Station) (g : Tag) : Posted p₀ 0 (announce src g (popLine s)).ps := by
  rw [ps_announce]
  exact posted_popLine h

theorem posted_announced_head (ht : takesLine s = true) {f : RxFrame} {rest : List RxFrame} (hx : s.lc.rx = f :: rest)
    (hb : lineNeedsRecord s f.body = !isHalted s) (src : Station) (g : Tag)
    (hh : isHalted (announce src g (popLine s)) = false) : Posted p₀ 1 (announce src g (popLine s)).ps := by
  rw [isHalted, announce_tp] at hh
  rw [ps_announce]
  exact posted_popLine_head h ht hx hb hh

theorem posts_claim : Posts p₀ (execClaim s) := by
  unfold execClaim
  split
  · next hx =>
    refine posts_settled h fun ht => ?_
    split
    · exact posted_decideClaim (posted_popLine h) (posted_popLine_head h ht hx (Bool.and_true _)) ..
    · exact posted_decideClaim (posted_announced h ..) (posted_announced_head h ht hx (Bool.and_true _) _ _) ..
  · exact posts_next h

theorem posts_post : Posts p₀ (execPost s) := by
  unfold execPost
  split
  · next hx =>
    exact posts_settled h fun ht =>
      posted_decidePost (posted_announced h ..) (posted_announced_head h ht hx (Bool.and_true _) _ _) ..
  · exact posts_next h

theorem posts_loadFrame : Posts p₀ (execLoadFrame s) := by
  unfold execLoadFrame
  split
  · next hx =>
    exact posts_settled h fun ht =>
      posted_decideLoad (posted_announced h ..) (posted_announced_head h ht hx (Bool.and_true _) _ _) ..
  · exact posts_next h

theorem posts_returnFrame : Posts p₀ (execReturnFrame s) := by
  unfold execReturnFrame
  split
  · next hx =>
    exact posts_settled h fun ht =>
      posted_decideReturn (posted_announced h ..) (posted_announced_head h ht hx (Bool.and_true _) _ _) ..
  · exact posts_next h

theorem posts_homeOperationTake : Posts p₀ (execHomeOperationTake s) := by
  unfold execHomeOperationTake
  split
  · next hx =>
    exact posts_settled h fun ht => posted_takeHomeOp (posted_popLocal_record h ht (by simp only [localRecord, hx])) _
  · exact posts_next h

theorem posts_localRequestTake : Posts p₀ (execLocalRequestTake s) := by
  unfold execLocalRequestTake
  split
  · next hx =>
    exact posts_settled h fun ht => posted_takeLocal (posted_popLocal h) fun hr =>
      posted_popLocal_record h ht (by simp only [localRecord, hx, hr])
  · exact posts_next h

theorem posts_holdExpiry (i : Fin 256) : Posts p₀ (execHoldExpiry i s) := by
  unfold execHoldExpiry
  split
  · split
    · exact posts_ite (fun _ => posted_settleWaiting (n := 0) h)
        fun _ => posted_settleWaiting (posted_secondNotice (s := freeEntry ..) h ..)
    · exact posts_next h
  · exact posts_next h

/-! ### Slots and the Deferred Queue (R67 to R101) -/

theorem posts_slotOpening : Posts p₀ (execSlotOpening s) := by
  unfold execSlotOpening
  split
  · exact posts_settled h fun hg => posted_takeOpening (posted_granted h hg) _
  · exact posts_next h

theorem posts_replyWindowExpiry (n : Fin 32) : Posts p₀ (execReplyWindowExpiry n s) := by
  unfold execReplyWindowExpiry
  split
  · refine posts_settled h fun _ => posted_trySlot ?_ n
    rw [ps_noAnswer]
    exact h
  · exact posts_next h

theorem posts_slotHoldExpiry (n : Fin 32) : Posts p₀ (execSlotHoldExpiry n s) := by
  unfold execSlotHoldExpiry
  split
  · refine posts_settled h fun _ => ?_
    rw [ps_releaseHeld]
    exact h
  · exact posts_next h

theorem posts_noticeEntry : Posts p₀ (execNoticeEntry s) := by
  unfold execNoticeEntry
  split
  · refine posts_settled h fun _ => ?_
    rw [enterDue_ps]
    exact h
  · exact posts_next h

theorem posts_forwarderChoice : Posts p₀ (execForwarderChoice s) := by
  unfold execForwarderChoice
  split
  · exact posts_settled h fun hg => posted_forward (posted_granted h hg) _
  · exact posts_next h

theorem posts_dqWindowExpiry : Posts p₀ (execDqWindowExpiry s) := by
  unfold execDqWindowExpiry
  split
  · exact posts_settled h fun _ => posted_dqDecide (s := putBackoff _ _ s) h _
  · exact posts_next h

theorem posts_dqReturnTake : Posts p₀ (execDqReturnTake s) := by
  unfold execDqReturnTake
  split
  · exact posts_settled h fun hg => posted_takeRefund (posted_granted h hg) ..
  · exact posts_next h

/-! ### The settlement round (R143 to R151) -/

theorem posts_roundOpening : Posts p₀ (execRoundOpening s) := by
  unfold execRoundOpening
  split
  · exact posts_settled h fun hg => posted_openRound (posted_granted h hg) _
  · exact posts_next h

theorem posts_tallyStep : Posts p₀ (execTallyStep s) := by
  unfold execTallyStep
  split
  · next p rest hx =>
    refine posts_settled h fun hc => posted_tallyTo (posted_leaveWaiting h _) (fun hs => ?_) rest
    have hn : tallyNeedsRecord s = true := by
      simp only [tallyNeedsRecord, hx, Bool.not_eq_true']
      exact hs
    simp only [hn, Bool.not_true, Bool.false_or, Bool.and_eq_true] at hc
    exact posted_granted h hc.2
  · exact posts_next h

theorem posts_receptionStep : Posts p₀ (execReceptionStep s) := by
  unfold execReceptionStep
  split
  · exact posts_settled h fun hg => posted_receive (posted_granted h hg) _
  · exact posts_next h

theorem posts_cutShortStep : Posts p₀ (execCutShortStep s) := by
  unfold execCutShortStep
  split
  · exact posts_settled h fun hg => posted_cutShort (posted_granted h hg)
  · exact posts_next h

theorem posts_payoutRecord : Posts p₀ (execPayoutRecord s) := by
  unfold execPayoutRecord
  split
  · exact posts_settled h fun hg => posted_makePayout (posted_granted h hg) _
  · exact posts_next h

/-! ### The line, the Posting Store, supply and reset (R105 to R132, R138, R175) -/

theorem posts_bodyClash : Posts p₀ (execBodyClash s) := by
  unfold execBodyClash
  split
  · exact posts_ite (fun _ => posted_settleWaiting
      (posted_lineFails (s := putReceiver .searching (stopSending (mapHead _ _ s))) h _)) fun _ => h
  · exact posts_next h

theorem posts_storeFault : Posts p₀ (execStoreFault s) := by
  unfold execStoreFault
  split
  · split
    · exact posts_ite (fun _ => posted_startUpSteps (s := tearWrite s) h.areas _) fun _ => posted_storeFaulted h
    · exact posts_next h
  · exact posts_next h

theorem posts_powerUp : Posts p₀ (execPowerUp s) := by
  unfold execPowerUp
  split
  · exact posts_next h
  · exact posts_ite (fun _ => h) fun _ => posted_startUpSteps h.areas .power

theorem posts_resetInputRelease : Posts p₀ (execResetInputRelease s) := by
  unfold execResetInputRelease
  split
  · exact posts_ite (fun _ => posted_startUpSteps h.areas .power) fun _ => h
  · exact posts_next h

/-! ### Every command -/

/-- Every command but the completion comes to its Posting Store by posting records and the waiting order. -/
theorem exec_posts (c : Instr) (hc : c ≠ .writeCompletion) : Posts p₀ (exec c s) := by
  cases c with
  | writeCompletion => exact absurd rfl hc
  | configure => exact posts_intake h _ _ (posted_tested fun _ ht => posted_takeConfigure ht _)
  | join => exact posts_plain h _ _ ps_joined
  | sell => exact posts_plain h _ _ fun _ => handTo_ps ..
  | close | freeze | unfreeze => exact posts_plain h _ _ fun _ => ps_routeHomeOp ..
  | load | redeem | returnCard | inquire => exact posts_plain h _ _ fun _ => ps_routeCard ..
  | confirm => exact posts_plain h _ _ fun _ => ps_routeConfirm ..
  | cancel => exact posts_plain h _ _ fun _ => ps_routeCancel ..
  | settle => exact posts_plain h _ _ fun _ => ps_takeSettle ..
  | recount => exact posts_plain h _ _ ps_takeRecount
  | takeNotice => exact posts_intake h _ _ fun t ht => (ps_takeNotice t).symm ▸ ht
  | clearEvents | setMask | status | readEvents => exact posts_intake h _ _ fun _ ht => ht
  | readCard | readCaplog | readDeferred | readPayout =>
    simp only [exec_readCard, exec_readCaplog, exec_readDeferred, exec_readPayout]
    refine posts_intake h _ _ fun t ht => ?_
    (repeat' split) <;> exact ht
  | reset => exact posts_ite (fun _ => posted_beginReset h) fun _ => h
  | malformed => exact posts_ite (fun _ => h) fun _ => h
  | powerUp => exact posts_powerUp h
  | powerFailure => exact posts_ite (fun _ => posted_stopped (s := { s with tp := _ }) h) fun _ => h
  | resetInputAssert => exact posts_ite (fun _ => h) fun _ => posted_stopped (s := { s with tp := _ }) h
  | resetInputRelease => exact posts_resetInputRelease h
  | reload => exact posts_ite (fun _ => posted_reloaded h) fun _ => h
  | homeOperationTake => exact posts_homeOperationTake h
  | localRequestTake => exact posts_localRequestTake h
  | hold => exact posts_hold h
  | claim => exact posts_claim h
  | drop => exact posts_drop h
  | post => exact posts_post h
  | loadFrame => exact posts_loadFrame h
  | returnFrame => exact posts_returnFrame h
  | inquireFrame => exact posts_inquireFrame h
  | holdExpiry i => exact posts_holdExpiry h i
  | slotOpening => exact posts_slotOpening h
  | replyWindowExpiry n => exact posts_replyWindowExpiry h n
  | slotHoldExpiry n => exact posts_slotHoldExpiry h n
  | offlineDecision n | slotDeferredEntry n | actorFiling n =>
    have hn := posts_next (posted_stepIfGranted h n.val)
    have hs := posts_next h
    simp only [exec, execOfflineDecision, execSlotDeferredEntry, execActorFiling]
    split <;> assumption
  | noticeEntry => exact posts_noticeEntry h
  | forwarderChoice => exact posts_forwarderChoice h
  | dqPendingStep => exact posts_next (posted_dqStepIfGranted h)
  | dqWindowExpiry => exact posts_dqWindowExpiry h
  | dqReturnTake => exact posts_dqReturnTake h
  | roundOpening => exact posts_roundOpening h
  | tallyStep => exact posts_tallyStep h
  | receptionStep => exact posts_receptionStep h
  | cutShortStep => exact posts_cutShortStep h
  | payoutRecord => exact posts_payoutRecord h
  | storeFault => exact posts_storeFault h
  | bodyClash => exact posts_bodyClash h
  | stuckTimerExpiry => exact posts_settled h fun _ => posted_lineFails h _
  | stall | holdOk | holdNo | claimOk | claimNo | postOk | postNo | loadOk | loadNo | returnOk | returnNo | balance
  | inquireNo | tallyOpen | tally | receiveQueueEntry => exact posts_completeFrame h ..
  | backoffExpiry | quietTimerExpiry | tallyTimerExpiry | idleGap => exact posts_settled h fun _ => h
  | computationCompletion | tallyOpenEntry =>
    simp only [exec, execComputationCompletion, execTallyOpenEntry]
    split
    · exact posts_settled h fun _ => h
    · exact posts_next h
  | frameSentWhole =>
    simp only [exec, execFrameSentWhole]
    split
    · exact posts_next (posted_settleWaiting (n := 0) h)
    · exact posts_next h
  | bodyLengthDiscard | frameStart | arbitrationLost | startSymbol =>
    simp only [exec, execBodyLengthDiscard, execFrameStart, execArbitrationLost, execStartSymbol]
    (repeat' split) <;> exact posts_next h

end Takes

theorem posted_of_exec {c : Instr} {t : State} (hc : c ≠ .writeCompletion) (h : exec c s = .next t) :
    Posted s.ps 0 t.ps := by
  obtain ⟨u, hu, hp⟩ := exec_posts (.refl s.ps) c hc
  cases h.symm.trans hu
  exact hp

end Exec

/-- Settles O12: what every command but the completion does to the Posting Store leaves its areas. -/
theorem storeChangesAtCompletion : Obligations.StoreChangesAtCompletion := fun _ _ _ h hc => (posted_of_exec hc h).areas

/-! ### The completion and the clock (R125, R127, R132, R184) -/

section Step
variable {s t : State}

/-- The head record durable leaves its place (R125). -/
theorem hasRoom_commitHead {r : PostingRecord} {rest : List PostingRecord} (hq : s.ps.queue = r :: rest)
    (h : HasRoom 0 s.ps) : HasRoom 0 (commitHead r rest s).ps := by
  obtain ⟨hp, hs⟩ := h
  rw [hq] at hp hs
  refine ⟨(Nat.add_le_add_right (Nat.add_le_add_right (Nat.le_succ _) _) _).trans hp, fun x hx => ?_⟩
  exact hs x (List.mem_cons_of_mem _ hx)

/-- The completion posts from the store with its head record durable (R125, R127, R132). -/
theorem posts_writeCompletion {r : PostingRecord} {rest : List PostingRecord} (hq : s.ps.queue = r :: rest)
    (hr : isRunning s = true) : Posts (commitHead r rest s).ps (exec .writeCompletion s) := by
  show Posts _ (execWriteCompletion s)
  simp only [execWriteCompletion, hq, hr, if_true]
  refine posts_ite (fun _ => posted_startUpSteps rfl _) fun _ => posted_tryConfigure (posted_settleWaiting (n := 0) ?_)
  rw [ps_releaseAll]
  exact .refl _

theorem hasRoom_of_completion (hs : HasRoom 0 s.ps) (h : exec .writeCompletion s = .next t) : HasRoom 0 t.ps := by
  by_cases hr : isRunning s = true
  · cases hq : s.ps.queue with
    | nil =>
      have hi : exec .writeCompletion s = .next s := by
        show execWriteCompletion s = _
        simp only [execWriteCompletion, hq]
      cases h.symm.trans hi
      exact hs
    | cons r rest =>
      obtain ⟨u, hu, hp⟩ := posts_writeCompletion hq hr
      cases h.symm.trans hu
      exact hp.room (hasRoom_commitHead hq hs)
  · have hi : exec .writeCompletion s = .next s := by
      show execWriteCompletion s = _
      simp only [execWriteCompletion, hr]
      split <;> rfl
    cases h.symm.trans hi
    exact hs

theorem hasRoom_of_exec {c : Instr} (hs : HasRoom 0 s.ps) (h : exec c s = .next t) : HasRoom 0 t.ps := by
  by_cases hc : c = .writeCompletion
  · subst hc
    exact hasRoom_of_completion hs h
  · exact (posted_of_exec hc h).room hs

theorem hasRoom_clock (hs : HasRoom 0 s.ps) : HasRoom 0 (clock s).ps := by
  unfold clock
  split
  · exact hs
  · exact ⟨hs.places, hs.sizes⟩

theorem hasRoom_of_step (hs : HasRoom 0 s.ps) (h : step s = .next t) : HasRoom 0 t.ps := by
  unfold step at h
  split at h
  · next c rest _ => exact hasRoom_of_exec (s := { s with pending := rest }) hs h
  · unfold idle at h
    split at h
    · split at h
      · cases h
        exact hasRoom_clock hs
      · cases h
        exact hs
    · exact hasRoom_of_exec hs h
    · exact hasRoom_of_exec (s := { s with choices := s.choices + 1 }) hs h

end Step

/-- Settles O7: every command but the completion posts within its granted places, the completion frees the head's place
first, and the clock leaves queue and waiting order. -/
theorem stepKeepsWriteQueue : Obligations.StepKeepsWriteQueue := fun s t hs h =>
  (writeQueueLaw_iff t).2 (hasRoom_of_step ((writeQueueLaw_iff s).1 hs) h)

end Sys2Proof.Machine

/-! ## The mirror law of two lines (R147, R158 to R161, R165) -/
namespace Sys2Proof.Machine
open Safety

section Mirror
variable {l : PairLine} {rate : Nat}

/-- A value that fits into 48 bits is carried unchanged (R160). -/
theorem toInt_narrow48 {x : Int} (h : -(2 ^ 47) ≤ x) (h' : x < 2 ^ 47) : (narrow48 x).toInt = x := by
  rw [narrow48, if_pos ⟨h, h'⟩]
  exact BitVec.toInt_ofInt_eq_self (by decide) h h'

/-- The fee is no larger than the rounded share of the net (R159). -/
theorem natAbs_feeOn_le (net : Int) (rate : Nat) : (feeOn net rate).natAbs ≤ (net.natAbs * rate + 5000) / 10000 := by
  have hs : net.sign.natAbs ≤ 1 := by rw [Int.natAbs_sign]; split <;> decide
  rw [feeOn, Int.natAbs_mul, Int.natAbs_natCast]
  exact (Nat.mul_le_mul_right _ hs).trans_eq (Nat.one_mul _)

/-- At a rate of at most a tenth the fee exceeds a tenth of the net by less than one unit (R159, R172). -/
theorem natAbs_feeOn_le_tenth (net : Int) (hr : rate ≤ 1000) : (feeOn net rate).natAbs ≤ net.natAbs / 10 + 1 := by
  have h := natAbs_feeOn_le net rate
  have hm : net.natAbs * rate ≤ net.natAbs * 1000 := Nat.mul_le_mul_left _ hr
  omega

/-- The sums of a line lie within the bound of R160. -/
def sumsBounded (l : PairLine) : Prop :=
  ∀ f ∈ [l.homeRed, l.homeRet, l.homeLoad, l.actRed, l.actRet, l.actLoad], -(2 ^ 43) ≤ f.sum.toInt ∧ f.sum.toInt ≤ 2 ^ 43

/-- What a line comes to before any fee: the net of the purchases acted for, less that of the home's, and the loads (R158,
R161). -/
def lineBeforeFee (l : PairLine) : Int :=
  (l.actRed.sum.toInt - l.actRet.sum.toInt) - (l.homeRed.sum.toInt - l.homeRet.sum.toInt) + l.homeLoad.sum.toInt -
    l.actLoad.sum.toInt

/-- A line has its own fee taken off once, whatever the rate (R161). -/
theorem line_add_feeIn (st : Station) (m : PairState) (hl : sumsBounded l) (hr : rate ≤ 1000) :
    (peerEntry rate ⟨st, m, l⟩).line.toInt + (peerEntry rate ⟨st, m, l⟩).feeIn.toInt = lineBeforeFee l := by
  simp only [sumsBounded, List.forall_mem_cons, List.not_mem_nil, false_implies, implies_true, and_true] at hl
  obtain ⟨hhr, hht, hhl, har, hat, hal⟩ := hl
  have hin := toInt_narrow48 (x := l.actRed.sum.toInt - l.actRet.sum.toInt) (by omega) (by omega)
  have hout := toInt_narrow48 (x := l.homeRed.sum.toInt - l.homeRet.sum.toInt) (by omega) (by omega)
  have hb := natAbs_feeOn_le_tenth (l.actRed.sum.toInt - l.actRet.sum.toInt) hr
  have hfee := toInt_narrow48 (x := feeOn (l.actRed.sum.toInt - l.actRet.sum.toInt) rate) (by omega) (by omega)
  simp only [peerEntry, lineBeforeFee, hin, hout, hfee]
  rw [toInt_narrow48 (by omega) (by omega)]
  omega

/-- Blocks that agree crosswise carry the same figures with the sides exchanged (R147). -/
theorem eq_of_crosswise {b a : PairLine} (h : crosswise b a = true) :
    b = ⟨a.actRed, a.actRet, a.actLoad, a.homeRed, a.homeRet, a.homeLoad⟩ := by
  simp only [crosswise, agrees, Bool.and_eq_true, beq_iff_eq] at h
  obtain ⟨⟨⟨⟨⟨hhr, hht⟩, hhl⟩, har⟩, hat⟩, hal⟩ := h
  cases b
  simp_all

end Mirror

/-- Settles O22: before fees the two lines are each other's negatives, and each fee is taken off one line only. -/
theorem mirrorLines : Obligations.MirrorLines := by
  intro a b rateA rateB sa sb ma mb hc hA hB ha
  obtain rfl := eq_of_crosswise hc
  have hb : sumsBounded ⟨a.actRed, a.actRet, a.actLoad, a.homeRed, a.homeRet, a.homeLoad⟩ := fun f hf =>
    ha f (by simp only [List.mem_cons, List.not_mem_nil, or_false] at hf ⊢; tauto)
  rw [line_add_feeIn sb ma ha hA, line_add_feeIn sa mb hb hB]
  simp only [lineBeforeFee]
  omega

end Sys2Proof.Machine

/-! ## SETTLE, RECOUNT and tally traffic at the Tally Unit (R142, R146, R151, R153) -/
namespace Sys2Proof.Machine
open Safety

/-! ### SETTLE and RECOUNT (R142, R153) -/

section Till
variable (s : State)

/-- What SETTLE comes to, by the round state and the day (R142). -/
theorem takeSettle_eq (day : Day) : takeSettle day s =
    if s.tu.state = .live ∨ s.tu.state = .settled then
      if s.tu.liveDay = some day then handTo .settle { s with tu := { s.tu with opening := some ⟨day, true, true⟩ } }
      else refuse .day s
    else refuse .state s := by
  unfold takeSettle
  cases s.tu.state <;> simp only [reduceCtorEq, or_self, or_true, true_or, if_true, if_false, ne_eq, ite_not]

/-- What RECOUNT comes to, by the pending opening and the round state (R153). -/
theorem takeRecount_eq : takeRecount s =
    if s.tu.opening = none ∧ (s.tu.state = .tallying ∨ s.tu.state = .settled) then
      accept 0 [] { s with tu := { s.tu with
        state := .tallying, sendList := memberPeers s, revised := s.tu.revised || s.tu.state == .settled
        tally := if memberPeers s = [] then some (s.tp.config.tally * 1000) else none } }
    else refuse .state s := by
  unfold takeRecount
  cases ho : s.tu.opening with
  | some o => rfl
  | none =>
    cases hs : s.tu.state with
    | live | quiet | computing => rfl
    | settled =>
      have hd : (RoundState.settled == RoundState.settled) = true := rfl
      simp only [startSending_eq, hd, Bool.or_true]
      rfl
    | tallying =>
      have hd : (RoundState.tallying == RoundState.settled) = false := rfl
      simp only [startSending_eq, hs, hd, Bool.or_false]
      rfl

end Till

/-- Settles O40: SETTLE and RECOUNT pass the station-state test and are handed to the Tally Unit. -/
theorem settleAndRecount : Obligations.SettleAndRecount := by
  intro s seq day hi hj
  have hsettle : exec (.settle seq day) s = .next (settleWaiting (takeSettle day (takeCommand 0x30 seq s))) :=
    (intake_of_idle _ _ s _ hi).trans (by rw [tested_of_none _ _ _ (tradeTest_of_joined _ _ s hj)])
  have hrecount : exec (.recount seq) s = .next (settleWaiting (takeRecount (takeCommand 0x31 seq s))) :=
    (intake_of_idle _ _ s _ hi).trans (by rw [tested_of_none _ _ _ (tradeTest_of_joined _ _ s hj)])
  rw [takeSettle_eq, takeCommand_tu] at hsettle
  rw [takeRecount_eq, takeCommand_tu] at hrecount
  constructor
  · refine ⟨_, hsettle, ?_⟩
    split_ifs <;> exact ⟨⟨rfl, rfl⟩, rfl, rfl⟩
  · by_cases hc : s.tu.opening = none ∧ (s.tu.state = .tallying ∨ s.tu.state = .settled)
    · rw [if_pos hc] at hrecount
      refine ⟨_, hrecount, ?_, rfl, rfl⟩
      rw [if_pos hc]
      exact ⟨rfl, rfl⟩
    · rw [if_neg hc] at hrecount
      refine ⟨_, hrecount, ?_, rfl, rfl⟩
      rw [if_neg hc]
      exact ⟨rfl, rfl⟩

/-! ### TALLY-OPEN and TALLY (R142, R146, R151) -/

section Arrivals
variable {s : State} {src dst : Station} {day : Day}

/-- A frame for the Tally Unit is heard in JOINED (R117, R121). -/
theorem isJoined_of_hears {b : Body} (hj : s.tp.station = .joined) (h : hears s src dst b) : isJoined s = true := by
  simp only [isJoined, hearing_up h.1, hj, decide_true, Bool.and_self]

/-- A member's TALLY-OPEN for another day sets DAY-SKEW alone (R142). -/
theorem tallyOpenArrives_of_ne (hj : isJoined s = true) (hm : isMember s src = true) (hd : s.tu.liveDay ≠ some day) :
    tallyOpenArrives src day s = setEvent .daySkew s := by
  simp only [tallyOpenArrives, hj, hm, Bool.not_true, Bool.or_self, Bool.false_eq_true, if_false, hd, ne_eq,
    not_false_iff, if_true]

/-- A member's TALLY-OPEN for the live day is the pending opening where none is, and cuts a round in QUIET or TALLYING short
(R142, R151). -/
theorem tallyOpenArrives_of_eq (hj : isJoined s = true) (hm : isMember s src = true) (hd : s.tu.liveDay = some day) :
    tallyOpenArrives src day s =
      if s.tu.state = .quiet ∨ s.tu.state = .tallying then { s with tu := { s.tu with
        opening := some (s.tu.opening.getD ⟨day, false, false⟩), cutShort := true, quiet := none, tally := none } }
      else { s with tu := { s.tu with opening := some (s.tu.opening.getD ⟨day, false, false⟩) } } := by
  simp only [tallyOpenArrives, hj, hm, Bool.not_true, Bool.or_self, Bool.false_eq_true, if_false, hd, ne_eq, not_true]
  cases s.tu.opening <;> cases s.tu.state <;> rfl

/-- A member's TALLY of the closing day joins the inbound list last, in place of one waiting from its source (R146). -/
theorem tallyArrives_of_eq (block : PairLine) (hj : isJoined s = true) (hm : isMember s src = true)
    (hd : s.tu.round.day = some day) : tallyArrives src day block s = leaveWaiting (.reception src) { s with tu := { s.tu with
      inbound := (s.tu.inbound.filter fun x => decide (x.src ≠ src)) ++ [⟨src, block⟩] } } := by
  have hf (x : Inbound) : (x.src != src) = decide (x.src ≠ src) := by rw [bne, beq_eq_decide, decide_not]
  simp only [tallyArrives, addInbound, hj, hm, hd, hf, decide_true, Bool.and_self, if_true]

/-- A TALLY of another day is discarded (R146). -/
theorem tallyArrives_of_ne (block : PairLine) (hd : s.tu.round.day ≠ some day) : tallyArrives src day block s = s := by
  simp only [tallyArrives, hd, decide_false, Bool.and_false, Bool.false_eq_true, if_false]

end Arrivals

/-- Settles O56: the frame is heard and delivered to the Tally Unit. -/
theorem tallyArrivals : Obligations.TallyArrivals := by
  intro s src dst day block hst hm
  refine ⟨fun h => ?_, fun h => ?_⟩
  · have hj : isJoined (frameEnded s) = true := isJoined_of_hears (s := s) hst h
    have he : exec (.tallyOpen src dst day) s = .next (settleWaiting (tallyOpenArrives src day (frameEnded s))) :=
      completeFields_of_hears h
    by_cases hd : s.tu.liveDay = some day
    · rw [tallyOpenArrives_of_eq hj hm hd, frameEnded_tu] at he
      by_cases hq : s.tu.state = .quiet ∨ s.tu.state = .tallying
      · rw [if_pos hq] at he
        exact ⟨_, he, rfl, fun h => absurd hd h, fun _ => ⟨rfl, fun _ => rfl, fun h => absurd hq (not_or.2 h)⟩⟩
      · rw [if_neg hq] at he
        exact ⟨_, he, rfl, fun h => absurd hd h, fun _ => ⟨rfl, fun h => absurd h hq, fun _ => rfl⟩⟩
    · rw [tallyOpenArrives_of_ne hj hm hd] at he
      exact ⟨_, he, rfl, fun _ => rfl, fun h => absurd h hd⟩
  · have hj : isJoined (frameEnded s) = true := isJoined_of_hears (s := s) hst h
    have he : exec (.tally src dst day block) s = .next (settleWaiting (tallyArrives src day block (frameEnded s))) :=
      completeFields_of_hears h
    by_cases hd : s.tu.round.day = some day
    · rw [tallyArrives_of_eq block hj hm hd] at he
      exact ⟨_, he, rfl, rfl, fun h => absurd hd h, fun _ => rfl⟩
    · rw [tallyArrives_of_ne (s := frameEnded s) block hd] at he
      exact ⟨_, he, rfl, rfl, fun _ => rfl, fun h => absurd h hd⟩

end Sys2Proof.Machine

/-! ## The steps of a settlement round (R143 to R151, R164, R166) -/
namespace Sys2Proof.Machine
open Safety

section Steps
variable {s : State}

/-! ### The opening and its TALLY-OPEN (R143) -/

/-- The opening in the place granted to it (R143). -/
theorem roundOpening_granted {o : Opening} {d : Day} (hg : granted s = some .roundOpening) (ho : s.tu.opening = some o)
    (hd : s.tu.liveDay = some d) : nextSatisfies (exec .roundOpening s) fun t =>
      oneRecord s t [.pairClosingAll s.tu.live [] ⟨some d, 0, false⟩, .pairLiveClear, .liveDay (d + 1), .peerFiguresClear]
        [.opened d o.settle] ∧
      t = { s with ps := t.ps, tu := { s.tu with
        closing := s.tu.live, live := [], marks := [], round := ⟨some d, 0, false⟩, figures := [], liveDay := some (d + 1)
        inbound := [], sendList := [], revised := false, state := .quiet, quiet := some (s.tp.config.quiet * 1000)
        tally := none, opening := none, cutShort := false
        heldOpen := if o.broadcast then some ⟨d, false⟩ else none } } := by
  have he : exec .roundOpening s = .next (settleWaiting (openRound o (leaveWaiting .roundOpening s))) := by
    show execRoundOpening s = _
    simp only [execRoundOpening, ho, (isGranted_iff s _).2 hg, if_true]
  have hl : liveDay (leaveWaiting .roundOpening s) = d := by simp only [liveDay, leaveWaiting_tu, hd, Option.getD_some]
  rw [openRound, hl] at he
  exact ⟨_, he, rfl, rfl⟩

/-- The held TALLY-OPEN, ready, enters class 1 (R143). -/
theorem tallyOpenEntry_ready {h : HeldOpen} (hh : s.tu.heldOpen = some h) (hr : h.ready = true) (hf : 1 ≤ txFree s .c1)
    (hj : isJoined s = true) : nextSatisfies (exec .tallyOpenEntry s) fun t => noRecord s t ∧ t = { s with
      ps := t.ps, tu := { s.tu with heldOpen := none }
      lc := { s.lc with tx1 := { s.lc.tx1 with frames := s.lc.tx1.frames ++ [⟨63, .tallyOpen h.day, 0, 0⟩] } } } := by
  have he : exec .tallyOpenEntry s =
      .next (settleWaiting (enqueue .c1 63 (.tallyOpen h.day) { s with tu := { s.tu with heldOpen := none } })) := by
    show execTallyOpenEntry s = _
    simp only [execTallyOpenEntry, hh, hr, hf, hj, and_self, if_true]
  exact ⟨_, he, rfl, rfl⟩

/-! ### The computation and its record (R149, R164, R166) -/

/-- The result of the computation that ends waits for its record (R149, R164). -/
theorem computation_completed {i : ComputeInputs} (hi : s.tu.computing = some i) (hj : isJoined s = true) :
    nextSatisfies (exec .computationCompletion s) fun t => noRecord s t ∧ t = { s with ps := t.ps, tu := { s.tu with
      computing := none, result := some (computePayout i s.tu.revised) } } := by
  have he : exec .computationCompletion s = .next (settleWaiting { s with tu := { s.tu with
      computing := none, result := some (computePayout i s.tu.revised) } }) := by
    show execComputationCompletion s = _
    simp only [execComputationCompletion, hi, hj, if_true]
  exact ⟨_, he, rfl, rfl⟩

/-- The payout record in the place granted to it (R149, R166). -/
theorem payout_granted {p : PayoutRecord PairState} (hg : granted s = some .payout) (hp : s.tu.result = some p) :
    nextSatisfies (exec .payoutRecord s) fun t =>
      oneRecord s t [.payout p, .roundPart { s.tu.round with computed := true }] [.payoutMade p.day] ∧
      t = { s with ps := t.ps, tu := { s.tu with
        result := none, payout := some p, round := { s.tu.round with computed := true } } } := by
  have he : exec .payoutRecord s = .next (settleWaiting (makePayout p (leaveWaiting .payout s))) := by
    show execPayoutRecord s = _
    simp only [execPayoutRecord, hp, (isGranted_iff s _).2 hg, if_true]
  exact ⟨_, he, rfl, rfl⟩

/-! ### A tally step (R145, R147) -/

section Tally
variable {p : Station} {rest : List Station}

/-- The tally step of the next peer runs when it is ready, a peer not yet sent to in the place granted to it (R145). -/
theorem tallyStep_eq (hl : s.tu.sendList = p :: rest) (hr : tallyReady s = true)
    (hg : inSet s.tu.round.sent p = true ∨ granted s = some .tally) :
    exec .tallyStep s = .next (settleWaiting (tallyTo p rest (leaveWaiting .tally s))) := by
  show execTallyStep s = _
  have hn : (!tallyNeedsRecord s || isGranted s .tally) = true := by
    simp only [tallyNeedsRecord, hl, Bool.not_not, Bool.or_eq_true, isGranted_iff]
    exact hg
  simp only [execTallyStep, hl, hr, hn, Bool.and_self, if_true]

/-- The sending list loses its first peer, and the tally timer starts when it is empty (R145). -/
def peerServed (s : State) (rest : List Station) : State :=
  { s with tu := { s.tu with
    sendList := rest
    tally := if rest = [] ∧ s.tu.cutShort = false then some (s.tp.config.tally * 1000) else s.tu.tally } }

/-- A peer joins the tallies-sent set (R145). -/
def sentTo (p : Station) (s : State) : State :=
  { s with tu := { s.tu with round := { s.tu.round with sent := addTo s.tu.round.sent p } } }

/-- What a tally step makes: the TALLY alone for a peer in the tallies-sent set; else the peer's addition, its comparison
and one record (R145). -/
theorem tallyTo_eq (p : Station) (rest : List Station) (s : State) : tallyTo p rest s =
    if inSet s.tu.round.sent p then enqueue .c1 p (tallyBody s p) (peerServed s rest)
    else
      let u := comparePeer p (sentTo p (peerServed s rest))
      makeRecord [.pairClosing p (closingLine u p) (markOf u p) (some u.tu.round)] [.tally p (tallyBody s p)]
        (reserve .c1 u) := by
  have hc : (rest.isEmpty && !s.tu.cutShort) = decide (rest = [] ∧ s.tu.cutShort = false) := by
    cases rest <;> cases s.tu.cutShort <;> rfl
  simp only [tallyTo, hc, decide_eq_true_eq]
  rfl

theorem tallyBody_of_day {d : Day} (hd : s.tu.round.day = some d) (p : Station) :
    tallyBody s p = .tally d (closingLine s p) := by
  simp only [tallyBody, hd, Option.getD_some]

/-- A peer in the tallies-sent set is sent its TALLY again, without a record (R145). -/
theorem tallyStep_again {d : Day} (hl : s.tu.sendList = p :: rest) (hr : tallyReady s = true) (hd : s.tu.round.day = some d)
    (hs : inSet s.tu.round.sent p = true) : nextSatisfies (exec .tallyStep s) fun t => noRecord s t ∧ t = { s with
      ps := t.ps
      tu := { s.tu with
        sendList := rest
        tally := if rest = [] ∧ s.tu.cutShort = false then some (s.tp.config.tally * 1000) else s.tu.tally }
      lc := { s.lc with tx1 := { s.lc.tx1 with frames := s.lc.tx1.frames ++ [⟨p, .tally d (closingLine s p), 0, 0⟩] } } } := by
  have he := tallyStep_eq hl hr (.inl hs)
  rw [tallyTo_eq, leaveWaiting_tu, if_pos hs, tallyBody_of_day (s := leaveWaiting .tally s) hd] at he
  exact ⟨_, he, rfl, rfl⟩

/-- A peer not yet sent to joins the tallies-sent set and is compared; its TALLY waits on the one record (R145, R147). -/
theorem tallyStep_first {d : Day} (hl : s.tu.sendList = p :: rest) (hr : tallyReady s = true) (hd : s.tu.round.day = some d)
    (hm : Table.rises s.tu.marks = true) (hs : inSet s.tu.round.sent p = false) (hg : granted s = some .tally) :
    nextSatisfies (exec .tallyStep s) fun t =>
      markOf t p = comparedMark s p (figuresOf s p) ∧ (∀ x, x ≠ p → markOf t x = markOf s x) ∧
      oneRecord s t [.pairClosing p (closingLine s p) (markOf t p) (some t.tu.round)] [.tally p (.tally d (closingLine s p))] ∧
      t = { s with
        ps := t.ps
        tu := { s.tu with
          sendList := rest, marks := t.tu.marks
          tally := if rest = [] ∧ s.tu.cutShort = false then some (s.tp.config.tally * 1000) else s.tu.tally
          round := { s.tu.round with sent := s.tu.round.sent ||| (1#64 <<< p.toNat) } }
        lc := { s.lc with tx1 := { s.lc.tx1 with reserved := s.lc.tx1.reserved + 1 } } } := by
  have he := tallyStep_eq hl hr (.inr hg)
  rw [tallyTo_eq, leaveWaiting_tu, if_neg (by rw [hs]; decide), tallyBody_of_day (s := leaveWaiting .tally s) hd] at he
  obtain ⟨hp, hx, hu, -⟩ := comparePeer_mark (sentTo p (peerServed (leaveWaiting .tally s) rest)) p hm
  simp only at he
  set u := comparePeer p (sentTo p (peerServed (leaveWaiting .tally s) rest))
  rw [hu] at he
  exact ⟨_, he, hp, hx, rfl, rfl⟩

end Tally

/-! ### A reception step (R146, R147, R150) -/

section Reception
variable {i : Inbound} {rest : List Inbound}

/-- The oldest TALLY leaves the inbound list, and its figures are the peer's (R146). -/
def figuresStored (i : Inbound) (rest : List Inbound) (s : State) : State :=
  { s with tu := { s.tu with inbound := rest, figures := Table.put s.tu.figures i.src.toNat i.block } }

/-- What a reception step makes: the storing of the figures, their comparison once the peer is in the tallies-sent set, and
one record (R146, R147, R150). -/
theorem receive_eq (hi : s.tu.inbound = i :: rest) : receive i s =
    if inSet s.tu.round.sent i.src then
      let u := comparePeer i.src (figuresStored i rest s)
      makeRecord [.peerFigures i.src i.block, .pairClosing i.src (closingLine u i.src) (markOf u i.src) none] []
        (restartComputation u)
    else makeRecord [.peerFigures i.src i.block] [] (restartComputation (figuresStored i rest s)) := by
  simp only [receive, hi]
  rfl

/-- The figures stored are the source's alone (R146). -/
theorem figuresOf_stored {t : State} (ht : t.tu.figures = Table.put s.tu.figures i.src.toNat i.block) :
    figuresOf t i.src = some i.block ∧ ∀ x, x ≠ i.src → figuresOf t x = figuresOf s x := by
  simp only [figuresOf, ht]
  exact ⟨Table.find_put_self .., fun x hx => Table.find_put_of_ne _ _ _ _ fun h => hx (BitVec.eq_of_toNat_eq h)⟩

/-- What the restart and the record leave of a state in which the figures, and the marks, have been written (R146, R150). -/
theorem received_eq {w : WaitStep} {u : State} {f : Table PairLine} {m : Table PairMark}
    (hu : u = { s with ps := (leaveWaiting w s).ps, tu := { s.tu with inbound := rest, figures := f, marks := m } })
    (us : List AreaUpdate) {t : State} (ht : settleWaiting (makeRecord us [] (restartComputation u)) = t) :
    t.tu.figures = f ∧ t.tu.marks = m ∧ oneRecord s t us [] ∧
    t = { s with ps := t.ps, tu :=
      if s.tu.state = .computing ∨ s.tu.state = .settled then { s.tu with
        inbound := rest, figures := t.tu.figures, marks := t.tu.marks, revised := true, state := .computing
        result := none, computing := some (computeInputs t) }
      else { s.tu with inbound := rest, figures := t.tu.figures, marks := t.tu.marks } } := by
  subst ht
  rw [restartComputation_eq, hu]
  by_cases hc : s.tu.state = .computing ∨ s.tu.state = .settled
  · simp only [if_pos hc]
    exact ⟨rfl, rfl, rfl, rfl⟩
  · simp only [if_neg hc]
    exact ⟨rfl, rfl, rfl, rfl⟩

/-- The reception of the oldest TALLY in the place granted to it (R146, R147, R150). -/
theorem reception_granted (hg : granted s = some (.reception i.src)) (hi : s.tu.inbound = i :: rest)
    (hm : Table.rises s.tu.marks = true) : nextSatisfies (exec .receptionStep s) fun t =>
      figuresOf t i.src = some i.block ∧ (∀ x, x ≠ i.src → figuresOf t x = figuresOf s x) ∧
      (inSet s.tu.round.sent i.src = false → t.tu.marks = s.tu.marks ∧ oneRecord s t [.peerFigures i.src i.block] []) ∧
      (inSet s.tu.round.sent i.src = true → markOf t i.src = comparedMark s i.src (some i.block) ∧
        (∀ x, x ≠ i.src → markOf t x = markOf s x) ∧
        oneRecord s t [.peerFigures i.src i.block, .pairClosing i.src (closingLine s i.src) (markOf t i.src) none] []) ∧
      t = { s with ps := t.ps, tu :=
        if s.tu.state = .computing ∨ s.tu.state = .settled then { s.tu with
          inbound := rest, figures := t.tu.figures, marks := t.tu.marks, revised := true, state := .computing
          result := none, computing := some (computeInputs t) }
        else { s.tu with inbound := rest, figures := t.tu.figures, marks := t.tu.marks } } := by
  have he : exec .receptionStep s = .next (settleWaiting (receive i (leaveWaiting (.reception i.src) s))) := by
    show execReceptionStep s = _
    simp only [execReceptionStep, hi, (isGranted_iff s _).2 hg, if_true]
  rw [receive_eq (s := leaveWaiting _ s) hi, leaveWaiting_tu] at he
  by_cases hs : inSet s.tu.round.sent i.src = true
  · obtain ⟨hp, hx, hu, -⟩ := comparePeer_mark (figuresStored i rest (leaveWaiting (.reception i.src) s)) i.src hm
    rw [(figuresOf_stored (s := s) rfl).1] at hp
    simp only [if_pos hs] at he
    generalize comparePeer i.src _ = u at he hp hx hu
    generalize ht : settleWaiting _ = t at he
    obtain ⟨hf, hmt, hr, hfr⟩ := received_eq (s := s) hu _ ht
    obtain ⟨hfi, hfx⟩ := figuresOf_stored hf
    have hmarks (x : Station) : markOf t x = markOf u x := congrArg (Table.get _ · _) hmt
    have hline : closingLine u i.src = closingLine s i.src := by rw [hu]; rfl
    rw [← hmarks, hline] at hr
    exact ⟨t, he, hfi, hfx, fun h => absurd hs (by rw [h]; decide),
      fun _ => ⟨(hmarks _).trans hp, fun x h => (hmarks x).trans (hx x h), hr⟩, hfr⟩
  · rw [if_neg hs] at he
    generalize ht : settleWaiting _ = t at he
    obtain ⟨hf, hmt, hr, hfr⟩ := received_eq (s := s) rfl _ ht
    obtain ⟨hfi, hfx⟩ := figuresOf_stored hf
    exact ⟨t, he, hfi, hfx, fun _ => ⟨hmt, hr⟩, fun h => absurd h hs, hfr⟩

end Reception

/-! ### The cut-short (R147, R151) -/

section CutShort

/-- A station put into a set is in it, and the others are as before. -/
theorem inSet_addTo (m : StationSet) (a st : Station) :
    inSet (addTo m a) st = (inSet m st || (isStation st && decide (st = a))) := by
  simp only [inSet, getLsbD_addTo, Bool.and_or_distrib_left, BitVec.toNat_inj]

theorem inSet_foldl_addTo (l : List Station) (m : StationSet) (st : Station) :
    inSet (l.foldl addTo m) st = (inSet m st || (isStation st && decide (st ∈ l))) := by
  induction l generalizing m with
  | nil => simp
  | cons a l ih =>
    rw [List.foldl_cons, ih, inSet_addTo, Bool.or_assoc, ← Bool.and_or_distrib_left, ← Bool.decide_or]
    simp only [List.mem_cons]

theorem isStation_of_peer {p : Station} (h : p ∈ memberPeers s) : isStation p = true := by
  simp only [memberPeers, List.mem_filter, isMember, inSet, Bool.and_eq_true, and_assoc] at h
  exact h.2.1

theorem nodup_memberPeers (s : State) : (memberPeers s).Nodup :=
  List.Nodup.filter _ (by decide : stationNumbers.Nodup)

/-- A comparison looks at the peer's mark and closing line alone (R147). -/
theorem comparedMark_congr {t : State} {p : Station} (hm : markOf t p = markOf s p) (hc : closingLine t p = closingLine s p)
    (f : Option PairLine) : comparedMark t p f = comparedMark s p f := by
  simp only [comparedMark, hm, hc]

/-- The comparison of one peer in a cut-short, made if its tally step has not been (R151). -/
theorem cutShortPeer_mark (before : StationSet) (a : Station) (hm : Table.rises s.tu.marks = true) :
    (∀ p, markOf (cutShortPeer before s a) p =
      if p = a ∧ inSet before p = false then comparedMark s p (figuresOf s p) else markOf s p) ∧
    cutShortPeer before s a = { s with tu := { s.tu with marks := (cutShortPeer before s a).tu.marks } } ∧
    Table.rises (cutShortPeer before s a).tu.marks = true := by
  unfold cutShortPeer
  by_cases hb : inSet before a = true
  · simp only [if_pos hb]
    refine ⟨fun p => (if_neg ?_).symm, trivial, hm⟩
    rintro ⟨rfl, h⟩
    exact absurd hb (by rw [h]; decide)
  · obtain ⟨ha, hx, hu, hr⟩ := comparePeer_mark s a hm
    simp only [if_neg hb]
    refine ⟨fun p => ?_, hu, hr⟩
    by_cases hp : p = a
    · subst hp
      rw [if_pos ⟨rfl, Bool.eq_false_iff.2 hb⟩]
      exact ha
    · rw [if_neg fun h => hp h.1]
      exact hx p hp

/-- The comparisons of a cut-short, one for each listed peer not yet in the tallies-sent set, change marks alone (R151). -/
theorem cutShortPeers_marks (before : StationSet) {l : List Station} (hl : l.Nodup) (hm : Table.rises s.tu.marks = true) :
    (∀ p, markOf (l.foldl (cutShortPeer before) s) p =
      if p ∈ l ∧ inSet before p = false then comparedMark s p (figuresOf s p) else markOf s p) ∧
    l.foldl (cutShortPeer before) s = { s with tu := { s.tu with marks := (l.foldl (cutShortPeer before) s).tu.marks } } := by
  induction l generalizing s with
  | nil => exact ⟨fun p => (if_neg fun h => List.not_mem_nil h.1).symm, rfl⟩
  | cons a l ih =>
    obtain ⟨ha, hl⟩ := List.nodup_cons.1 hl
    obtain ⟨hmark, hu, hr⟩ := cutShortPeer_mark before a hm
    obtain ⟨ihm, ihu⟩ := ih hl hr
    rw [List.foldl_cons]
    generalize l.foldl (cutShortPeer before) (cutShortPeer before s a) = t at ihm ihu
    generalize cutShortPeer before s a = u at hmark hu ihm ihu
    refine ⟨fun p => ?_, ihu.trans (by rw [hu])⟩
    have hfig : figuresOf u p = figuresOf s p := by rw [hu]; rfl
    have hline : closingLine u p = closingLine s p := by rw [hu]; rfl
    rw [ihm p, hfig, hmark p]
    by_cases hp : p = a
    · subst hp
      rw [if_neg fun h => ha h.1]
      exact if_congr (and_congr_left fun _ => iff_of_true rfl List.mem_cons_self) rfl rfl
    · have hsame : markOf u p = markOf s p := by rw [hmark p, if_neg fun h => hp h.1]
      rw [comparedMark_congr hsame hline, if_neg (c := p = a ∧ _) fun h => hp h.1]
      exact if_congr (and_congr_left fun _ => (List.mem_cons.trans (or_iff_right hp)).symm) rfl rfl

/-- The state of a cut-short before its comparisons: nothing left to send, every member peer in the tallies-sent set (R151). -/
def cutShortSent (s : State) : State :=
  { s with tu := { s.tu with
    sendList := [], cutShort := false, round := { s.tu.round with sent := (memberPeers s).foldl addTo s.tu.round.sent } } }

/-- The cut-short in the place granted to it: every member peer joins the tallies-sent set, the comparisons that waited are
made, and the computation begins (R151). -/
theorem cutShort_granted (hg : granted s = some .cutShort) (hc : s.tu.cutShort = true)
    (hm : Table.rises s.tu.marks = true) : nextSatisfies (exec .cutShortStep s) fun t =>
      oneRecord s t [.pairClosingAll s.tu.closing t.tu.marks t.tu.round] [] ∧
      (∀ p, inSet t.tu.round.sent p = (inSet s.tu.round.sent p || decide (p ∈ memberPeers s))) ∧
      t.tu.round = { s.tu.round with sent := t.tu.round.sent } ∧
      (∀ p, markOf t p = if p ∈ memberPeers s ∧ inSet s.tu.round.sent p = false then comparedMark s p (figuresOf s p)
        else markOf s p) ∧
      t = { s with ps := t.ps, tu := { s.tu with
        sendList := [], cutShort := false, round := t.tu.round, marks := t.tu.marks, state := .computing
        computing := some (computeInputs t), result := none } } := by
  have he : exec .cutShortStep s = .next (settleWaiting (cutShort (leaveWaiting .cutShort s))) := by
    show execCutShortStep s = _
    simp only [execCutShortStep, hc, (isGranted_iff s _).2 hg, if_true]
  obtain ⟨hmark, hu⟩ := cutShortPeers_marks (s := cutShortSent (leaveWaiting .cutShort s)) s.tu.round.sent
    (nodup_memberPeers s) hm
  have hcut : cutShort (leaveWaiting .cutShort s) =
      let u := (memberPeers s).foldl (cutShortPeer s.tu.round.sent) (cutShortSent (leaveWaiting .cutShort s))
      makeRecord [.pairClosingAll u.tu.closing u.tu.marks u.tu.round] [] (beginComputation u) := rfl
  rw [hcut] at he
  simp only at he
  generalize (memberPeers s).foldl (cutShortPeer s.tu.round.sent) _ = u at he hmark hu
  have hsent (p : Station) : inSet ((memberPeers s).foldl addTo s.tu.round.sent) p =
      (inSet s.tu.round.sent p || decide (p ∈ memberPeers s)) := by
    rw [inSet_foldl_addTo]
    by_cases hp : p ∈ memberPeers s
    · rw [isStation_of_peer hp, Bool.true_and]
    · simp only [hp, decide_false, Bool.and_false]
  refine ⟨_, he, ?_⟩
  rw [hu]
  rw [hu] at hmark
  exact ⟨rfl, hsent, rfl, hmark, rfl⟩

end CutShort

end Steps

/-- Settles O60: each step of the round, as the sections above have it. -/
theorem roundSteps : Obligations.RoundSteps := fun _ =>
  ⟨fun _ _ _ hg ho hd hr => hr ▸ roundOpening_granted hg ho hd,
   fun _ => tallyOpenEntry_ready,
   fun _ _ _ hl hr hd hm => ⟨tallyStep_again hl hr hd, tallyStep_first hl hr hd hm⟩,
   fun _ _ => reception_granted, cutShort_granted, fun _ => computation_completed,
   fun _ _ hg hp hr => hr ▸ payout_granted hg hp⟩

end Sys2Proof.Machine

/-! ## Operations that leave the Tally Unit, and what a home's count leaves of it -/
namespace Sys2Proof.Machine
open Safety

section Tu
variable (s : State)

/-! ### The Card Table Unit (R37 to R61) -/

@[simp] theorem answerNow_tu (d : Station) (b : Body) : (answerNow d b s).tu = s.tu := rfl
@[simp] theorem popLine_tu : (popLine s).tu = s.tu := rfl
@[simp] theorem popLocal_tu : (popLocal s).tu = s.tu := rfl

@[simp] theorem announce_tu (src : Station) (g : Tag) : (announce src g s).tu = s.tu := by
  unfold announce
  split <;> rfl

@[simp] theorem answerAfterRecords_tu (d : Station) (b : Body) : (answerAfterRecords d b s).tu = s.tu := by
  unfold answerAfterRecords
  split <;> rfl

@[simp] theorem secondNotice_tu (h : LiveHold) (n : Notice) (asked : Nat) : (secondNotice h n asked s).tu = s.tu := by
  rw [secondNotice_cases]
  split <;> rfl

@[simp] theorem decideHold_tu (src : Station) (g : Tag) (card : CardNo) (check : Check) (amount : Nat) (split : Bool) :
    (decideHold src g card check amount split s).tu = s.tu := by
  simp only [decideHold]
  (repeat' split) <;> rfl

@[simp] theorem decideDrop_tu (src : Station) (g : Tag) (id : HoldId) : (decideDrop src g id s).tu = s.tu := by
  unfold decideDrop
  (repeat' split) <;> rfl

@[simp] theorem decideInquire_tu (src : Station) (g : Tag) (card : CardNo) (check : Check) (asked : Option Tag) :
    (decideInquire src g card check asked s).tu = s.tu := by
  simp only [decideInquire]
  (repeat' split) <;> simp

@[simp] theorem takeHomeOp_tu (op : HomeOp) : (takeHomeOp op s).tu = s.tu := by
  unfold takeHomeOp
  (repeat' split) <;> rfl

/-! ### Slots and the Deferred Queue (R68 to R101) -/

@[simp] theorem sendDrop_tu (sl : Slot) : (sendDrop sl s).tu = s.tu := by
  unfold sendDrop
  (repeat' split) <;> rfl

@[simp] theorem releaseHeld_tu (n : Nat) (sl : Slot) (o : NoticeOutcome) : (releaseHeld n sl o s).tu = s.tu := by
  simp [releaseHeld]

@[simp] theorem tagInquiry_tu (n : Nat) (sl : Slot) : (tagInquiry n sl s).tu = s.tu := by
  unfold tagInquiry
  split <;> rfl

@[simp] theorem redeemUnanswered_tu (n : Nat) (sl : Slot) (m : Notice) : (redeemUnanswered n sl m s).tu = s.tu := by
  unfold redeemUnanswered
  split <;> rfl

@[simp] theorem noAnswer_tu (n : Nat) (sl : Slot) : (noAnswer n sl s).tu = s.tu := by
  unfold noAnswer
  split <;> simp

@[simp] theorem withdrawRequest_tu (n : Nat) (g : Tag) : (withdrawRequest n g s).tu = s.tu := by
  unfold withdrawRequest
  split <;> rfl

@[simp] theorem fileStep_tu (n : Nat) (sl : Slot) (p : FilePos) (amount : Nat) (day : Option Day) (m : Notice) :
    (fileStep n sl p amount day m s).tu = s.tu := rfl
@[simp] theorem slotHeld_tu (n : Nat) (sl : Slot) (id : HoldId) (grant avail : Nat) (b : Bool) :
    (slotHeld n sl id grant avail b s).tu = s.tu := rfl

@[simp] theorem slotClaimNo_tu (n : Nat) (sl : Slot) (r : Reason) : (slotClaimNo n sl r s).tu = s.tu := by
  unfold slotClaimNo
  split <;> simp

@[simp] theorem slotBalance_tu (n : Nat) (sl : Slot) (c : CardState) (bal avail : Nat) (q : TagResult) :
    (slotBalance n sl c bal avail q s).tu = s.tu := by
  unfold slotBalance
  split <;> rfl

@[simp] theorem slotAnswer_tu (n : Nat) (sl : Slot) (b : Body) : (slotAnswer n sl b s).tu = s.tu := by
  unfold slotAnswer
  (repeat' split) <;> simp

@[simp] theorem confirmSlot_tu (g : Tag) (amount : Nat) : (confirmSlot g amount s).tu = s.tu := by
  simp only [confirmSlot]
  (repeat' split) <;> simp

@[simp] theorem cancelSlot_tu (g : Tag) : (cancelSlot g s).tu = s.tu := by
  unfold cancelSlot
  split <;> simp

@[simp] theorem enterDues_tu (n : Nat) : (enterDues n s).tu = s.tu := by
  induction n generalizing s with
  | zero => rfl
  | succ n ih =>
    unfold enterDues
    split
    · rw [ih, enterDue_tu]
    · rfl

/-! ### Till commands -/

@[simp] theorem routeHomeOp_tu (card : CardNo) (op : HomeOp) : (routeHomeOp card op s).tu = s.tu := by
  unfold routeHomeOp
  split <;> rfl

@[simp] theorem routeCard_tu (own : LocalReq) (r : OpenReq) : (routeCard own r s).tu = s.tu := by
  unfold routeCard routeForeign
  (repeat' split) <;> rfl

@[simp] theorem routeConfirm_tu (g : Tag) (amount : Nat) : (routeConfirm g amount s).tu = s.tu := by
  unfold routeConfirm
  (repeat' split) <;> simp

@[simp] theorem routeCancel_tu (g : Tag) : (routeCancel g s).tu = s.tu := by
  unfold routeCancel
  split <;> simp

@[simp] theorem takeNotice_tu : (takeNotice s).tu = s.tu := by
  unfold takeNotice
  split <;> simp

end Tu

/-! ### The view of the pair tables (R139, R140, R145) -/

/-- What the rules on marks and closing lines read of the state. -/
structure PairView where
  closing : Table PairLine
  marks : Table PairMark
  sent : StationSet

/-- The closing lines, the marks and the tallies-sent set as the state has them. -/
def pairView (s : State) : PairView := ⟨s.tu.closing, s.tu.marks, s.tu.round.sent⟩

section View
variable (s : State)

theorem pairView_of_tu {t : State} (h : t.tu = s.tu) : pairView t = pairView s := by simp only [pairView, h]

@[simp] theorem pairView_settleWaiting : pairView (settleWaiting s) = pairView s := rfl
@[simp] theorem pairView_popLine : pairView (popLine s) = pairView s := rfl
@[simp] theorem pairView_popLocal : pairView (popLocal s) = pairView s := rfl
@[simp] theorem pairView_announce (src : Station) (g : Tag) : pairView (announce src g s) = pairView s :=
  pairView_of_tu s (announce_tu ..)

@[simp] theorem pairView_decideClaim (src : Station) (g : Tag) (card : CardNo) (id : HoldId) (amount : Nat) (retry : Bool) :
    pairView (decideClaim src g card id amount retry s) = pairView s := by
  simp only [decideClaim]
  (repeat' split) <;> simp [pairView, applyCapture]

@[simp] theorem pairView_decidePost (src : Station) (g : Tag) (card : CardNo) (check : Check) (amount : Nat) :
    pairView (decidePost src g card check amount s) = pairView s := by
  simp only [decidePost, applyPost]
  (repeat' split) <;> simp [pairView, applyCapture]

@[simp] theorem pairView_decideLoad (src : Station) (g : Tag) (card : CardNo) (check : Check) (amount : Nat) :
    pairView (decideLoad src g card check amount s) = pairView s := by
  simp only [decideLoad]
  (repeat' split) <;> simp [pairView, applyLoad]

@[simp] theorem pairView_decideReturn (src : Station) (g : Tag) (card : CardNo) (o : Tag) (amount : Nat) :
    pairView (decideReturn src g card o amount s) = pairView s := by
  simp only [decideReturn]
  (repeat' split) <;> simp [pairView, applyReturn]

@[simp] theorem pairView_takeLocal (r : LocalReq) : pairView (takeLocal r s) = pairView s := by
  cases r with
  | load card check amount =>
    simp only [takeLocal, takeLocalLoad]
    (repeat' split) <;> rfl
  | redeem card check amount split =>
    simp only [takeLocal, takeLocalRedeem]
    (repeat' split) <;> rfl
  | ret card o amount =>
    simp only [takeLocal, takeLocalReturn]
    (repeat' split) <;> rfl
  | inquire card check asked =>
    simp only [takeLocal, takeLocalInquire]
    (repeat' split) <;> rfl
  | confirm g amount =>
    simp only [takeLocal, takeLocalConfirm]
    (repeat' split) <;> rfl
  | cancel g =>
    simp only [takeLocal, takeLocalCancel]
    split <;> simp [pairView]

/-! ### The settlement round (R142 to R153) -/

@[simp] theorem pairView_takeSettle (d : Day) : pairView (takeSettle d s) = pairView s := by
  unfold takeSettle
  (repeat' split) <;> rfl

@[simp] theorem pairView_takeRecount : pairView (takeRecount s) = pairView s := by
  unfold takeRecount
  (repeat' split) <;> rfl

@[simp] theorem pairView_tallyOpenArrives (src : Station) (d : Day) : pairView (tallyOpenArrives src d s) = pairView s := by
  unfold tallyOpenArrives
  (repeat' split) <;> rfl

@[simp] theorem pairView_tallyArrives (src : Station) (d : Day) (b : PairLine) :
    pairView (tallyArrives src d b s) = pairView s := by
  unfold tallyArrives
  split <;> rfl

@[simp] theorem pairView_restartComputation : pairView (restartComputation s) = pairView s := by
  unfold restartComputation
  split <;> rfl

@[simp] theorem pairView_joined : pairView (joined s) = pairView s := by
  unfold joined resumeRound
  split <;> rfl

/-! ### Release and store fault (R127, R130, R155) -/

theorem pairView_foldl {α : Type} (f : State → α → State) (h : ∀ s a, pairView (f s a) = pairView s) (l : List α)
    (s : State) : pairView (l.foldl f s) = pairView s := by
  induction l generalizing s with
  | nil => rfl
  | cons a l ih => rw [List.foldl_cons, ih, h]

@[simp] theorem pairView_releasePlaced (n : Notice) : pairView (releasePlaced n s) = pairView s := by
  unfold releasePlaced enteredHold
  (repeat' split) <;> rfl

@[simp] theorem pairView_releaseSlotFrame (n : Nat) (g : Tag) (d : Station) (b : Body) :
    pairView (releaseSlotFrame n g d b s) = pairView s := by
  simp only [releaseSlotFrame]
  (repeat' split) <;> rfl

@[simp] theorem pairView_releaseDqFrame (d : Station) (b : Body) : pairView (releaseDqFrame d b s) = pairView s := by
  simp only [releaseDqFrame]
  split <;> rfl

@[simp] theorem pairView_releasePayout (d : Day) : pairView (releasePayout d s) = pairView s := by
  simp only [releasePayout]
  split <;> rfl

@[simp] theorem pairView_releaseOpened (d : Day) (b : Bool) : pairView (releaseOpened d b s) = pairView s := by
  simp only [releaseOpened]
  split <;> rfl

@[simp] theorem pairView_release (d : Dependent) : pairView (release d s) = pairView s := by
  cases d with
  | placed n asked => exact pairView_releasePlaced s n
  | slotFrame n g dst b => exact pairView_releaseSlotFrame s n g dst b
  | dqFrame dst b => exact pairView_releaseDqFrame s dst b
  | opened d b => exact pairView_releaseOpened s d b
  | payoutMade d => exact pairView_releasePayout s d
  | _ => rfl

@[simp] theorem pairView_releaseAll (ds : List Dependent) : pairView (releaseAll ds s) = pairView s :=
  pairView_foldl _ (fun t d => pairView_release t d) ds s

@[simp] theorem pairView_faultSlots : pairView (faultSlots s) = pairView s := by
  have hs (t : State) (n : Nat) : pairView (faultSlot t n) = pairView t := by
    unfold faultSlot
    (repeat' split) <;> rfl
  exact (pairView_foldl _ hs _ _).trans (pairView_of_tu _ (enterDues_tu ..))

/-- The store fault stops the round, and leaves its tables as they stand (R155). -/
@[simp] theorem pairView_storeFaulted : pairView (storeFaulted s) = pairView s := by
  rw [storeFaulted_eq]
  calc pairView (faultRest (faultSlots (holdsEnded s))) = pairView (faultSlots (holdsEnded s)) := by
        simp only [pairView, faultRest_tu]
    _ = pairView (holdsEnded s) := pairView_faultSlots _
    _ = pairView s := pairView_of_tu s (holdsEnded_tu s)

end View
end Sys2Proof.Machine

/-! ## Marks and closing lines between two openings (R140, R145, R147) -/
namespace Sys2Proof.Machine
open Safety

/-- What stands of the pair tables while no round is opened: a DISPUTED mark stays, the tallies-sent set loses no station, and
the closing line of a station in it stays (R140, R145). -/
structure PairView.Kept (v w : PairView) : Prop where
  marks : Table.rises v.marks = true → Table.rises w.marks = true ∧ ∀ st : Station,
    Table.get PairMark.none v.marks st.toNat = .disputed → Table.get PairMark.none w.marks st.toNat = .disputed
  lines : Table.rises v.closing = true → Table.rises w.closing = true ∧ ∀ st : Station,
    inSet v.sent st = true → Table.get blankLine w.closing st.toNat = Table.get blankLine v.closing st.toNat
  sent : ∀ st, inSet v.sent st = true → inSet w.sent st = true

/-- The pair tables of the second state are those of the first, but for what may change between two openings. -/
abbrev PairsKept (s t : State) : Prop := (pairView s).Kept (pairView t)

namespace PairsKept
variable {s t u : State}

theorem trans (h : PairsKept s t) (h' : PairsKept t u) : PairsKept s u where
  marks hr := by
    obtain ⟨ht, hm⟩ := h.marks hr
    obtain ⟨hu, hm'⟩ := h'.marks ht
    exact ⟨hu, fun st hd => hm' st (hm st hd)⟩
  lines hr := by
    obtain ⟨ht, hl⟩ := h.lines hr
    obtain ⟨hu, hl'⟩ := h'.lines ht
    exact ⟨hu, fun st hs => (hl' st (h.sent st hs)).trans (hl st hs)⟩
  sent st hs := h'.sent st (h.sent st hs)

theorem refl (s : State) : PairsKept s s := ⟨fun hr => ⟨hr, fun _ hd => hd⟩, fun hr => ⟨hr, fun _ _ => rfl⟩, fun _ hs => hs⟩

/-- A command that leaves the view leaves all of it. -/
theorem of_view (e : pairView t = pairView s) : PairsKept s t := by
  rw [PairsKept, e]
  exact PairsKept.refl s

theorem of_tu (e : t.tu = s.tu) : PairsKept s t := of_view (pairView_of_tu s e)

theorem foldl {α : Type} (f : State → α → State) (h : ∀ s a, PairsKept s (f s a)) (l : List α) (s : State) :
    PairsKept s (l.foldl f s) := by
  induction l generalizing s with
  | nil => exact .refl s
  | cons a l ih => exact (h s a).trans (ih _)

/-! ### The writes -/

/-- A mark is written, DISPUTED over DISPUTED (R140, R147). -/
theorem ofMark (st : Station) {m : PairMark} (hm : markOf s st = .disputed → m = .disputed) :
    PairsKept s (putMark st m s) where
  marks hr := by
    obtain ⟨hst, hx⟩ := markOf_of_set (t := putMark st m s) hr rfl
    refine ⟨Table.rises_set _ _ _ hr, fun x hd => ?_⟩
    by_cases h : x = st
    · subst h
      exact hst.trans (hm hd)
    · exact (hx x h).trans hd
  lines hr := ⟨hr, fun _ _ => rfl⟩
  sent _ hs := hs

/-- A closing line is written for a station that no tally has been sent to (R82, R145). -/
theorem ofLine {home : Station} (hs : inSet s.tu.round.sent home = false) (l : PairLine) :
    PairsKept s { s with tu := { s.tu with closing := Table.set blankLine s.tu.closing home.toNat l } } where
  marks hr := ⟨hr, fun _ hd => hd⟩
  lines hr := by
    refine ⟨Table.rises_set _ _ _ hr, fun x hx => Table.get_set_of_ne _ _ _ _ _ hr fun h => ?_⟩
    cases BitVec.eq_of_toNat_eq h
    exact absurd hx (Bool.eq_false_iff.1 hs)
  sent _ hs := hs

/-- Stations join the tallies-sent set (R145, R151, R171). -/
theorem ofSent {m : StationSet} (hm : ∀ st, inSet s.tu.round.sent st = true → inSet m st = true) :
    PairsKept s { s with tu := { s.tu with round := { s.tu.round with sent := m } } } where
  marks hr := ⟨hr, fun _ hd => hd⟩
  lines hr := ⟨hr, fun _ _ => rfl⟩
  sent := hm

end PairsKept

section Operations
variable (s : State)

/-! ### Filings (R82, R83) -/

/-- A filing goes into a closing line only before the home's tally (R82, R145). -/
theorem inSet_sent_of_filePlace {home : Station} {day : Day} (h : filePlace s home day = .closing) :
    inSet s.tu.round.sent home = false := by
  unfold filePlace at h
  split_ifs at h with _ hc
  exact hc.2

theorem pairsKept_fileActor (home : Station) (p : FilePos) (amount : Nat) (day : Day) :
    PairsKept s (fileActor home p amount day s).1 := by
  unfold fileActor
  cases hp : filePlace s home day <;> simp only [reduceCtorEq, if_true, if_false]
  case live => exact .of_view rfl
  case closing => exact .ofLine (inSet_sent_of_filePlace s hp) _
  case late =>
    have hmark : PairsKept s (putMark home .disputed (setEvent .lateFiling { s with tu := { s.tu with
        live := Table.set blankLine s.tu.live home.toNat (countActor (liveLine s home) p amount) } })) :=
      .trans (.of_view rfl) (.ofMark home fun _ => rfl)
    split
    · split
      · exact hmark.trans (.of_view (pairView_restartComputation _))
      · exact hmark
    · exact .of_view rfl

/-! ### Slots (R68 to R84) -/

theorem pairsKept_performSlotStep (n : Nat) : PairsKept s (performSlotStep n s) := by
  unfold performSlotStep
  split
  · exact .refl s
  · split
    · exact .refl s
    · split <;> exact .of_view rfl
    · exact .of_view rfl
    · exact .of_view rfl
    · exact (pairsKept_fileActor s ..).trans (.of_view rfl)

theorem pairsKept_stepIfGranted (n : Nat) : PairsKept s (stepIfGranted n s) := by
  unfold stepIfGranted
  split
  · exact .trans (pairsKept_performSlotStep (leaveWaiting (.slot n) s) n) (.of_view rfl)
  · exact .refl s

theorem pairsKept_trySlot (n : Nat) : PairsKept s (trySlot n s) := pairsKept_stepIfGranted (settleWaiting s) n

/-- A slot's cause taken, on a state with the same Tally Unit. -/
theorem pairsKept_trySlot_of_tu {u : State} (h : u.tu = s.tu) (n : Nat) : PairsKept s (trySlot n u) :=
  (PairsKept.of_tu h).trans (pairsKept_trySlot u n)

theorem pairsKept_lineFails (l : LineState) : PairsKept s (lineFails l s) := by
  refine .trans (.of_view rfl : PairsKept s (setEvent .line { s with lc := { s.lc with line := l } })) ?_
  refine .foldl _ (fun t n => ?_) _ _
  unfold lineNoAnswer
  split
  · split
    · exact pairsKept_trySlot_of_tu t (by simp) n
    · exact .refl t
  · exact .refl t

theorem pairsKept_takeOpening (r : OpenReq) : PairsKept s (takeOpening r s) := by
  simp only [takeOpening]
  split
  · exact .of_view rfl
  · split
    · exact .of_view rfl
    · split
      · exact pairsKept_trySlot_of_tu s (by simp) _
      · exact .of_view rfl

/-! ### The Deferred Queue (R89 to R101) -/

theorem pairsKept_performDqStep : PairsKept s (performDqStep s) := by
  unfold performDqStep
  split
  · split
    · exact .of_view rfl
    · exact .of_view rfl
    · simp only
      split
      · exact (pairsKept_fileActor (putDeferred _ { s with dq := { s.dq with pending := none } }) ..).trans (.of_view rfl)
      · exact .of_view rfl
  · exact .refl s

theorem pairsKept_dqStepIfGranted : PairsKept s (dqStepIfGranted s) := by
  unfold dqStepIfGranted
  split
  · exact .trans (pairsKept_performDqStep (leaveWaiting .dqPending s)) (.of_view rfl)
  · exact .refl s

theorem pairsKept_dqDecide (w : DqStep) : PairsKept s (dqDecide w s) :=
  pairsKept_dqStepIfGranted (settleWaiting { s with dq := { s.dq with reply := none, pending := some w } })

theorem pairsKept_dqAnswer (e : DeferredEntry) (b : Body) : PairsKept s (dqAnswer e b s) := by
  have hb (home : Station) (l : BackoffLine) (w : DqStep) : PairsKept s (dqDecide w (putBackoff home l s)) :=
    pairsKept_dqDecide (putBackoff home l s) w
  unfold dqAnswer
  split
  · exact .of_view rfl
  · exact hb ..
  · exact hb ..
  · exact hb ..
  · split <;> exact hb ..
  · exact .refl s

theorem pairsKept_takeRefund (card : CardNo) (g : Tag) (amount : Nat) : PairsKept s (takeRefund card g amount s) := by
  unfold takeRefund
  split
  · exact pairsKept_takeOpening s _
  · split <;> exact .of_view rfl

/-! ### The settlement round (R145 to R151) -/

/-- A comparison leaves DISPUTED as it is (R147). -/
theorem pairsKept_comparePeer (st : Station) : PairsKept s (comparePeer st s) := by
  unfold comparePeer
  split
  · exact .ofMark st fun hd => if_pos hd
  · exact .refl s

theorem pairsKept_tallyTo (st : Station) (rest : List Station) : PairsKept s (tallyTo st rest s) := by
  rw [tallyTo_eq]
  split
  · exact .of_view rfl
  · have hs : PairsKept s (sentTo st (peerServed s rest)) :=
      .trans (.of_view rfl : PairsKept s (peerServed s rest)) (.ofSent fun x hx => by
        rw [inSet_addTo, hx, Bool.true_or])
    exact (hs.trans (pairsKept_comparePeer _ st)).trans (.of_view rfl)

theorem pairsKept_receive (i : Inbound) : PairsKept s (receive i s) := by
  simp only [receive]
  split
  · have h := pairsKept_comparePeer (figuresStored i s.tu.inbound.tail s) i.src
    exact .trans (h.trans (.of_view (pairView_restartComputation _))) (.of_view rfl)
  · exact .of_view (pairView_restartComputation (figuresStored i s.tu.inbound.tail s))

theorem pairsKept_cutShort : PairsKept s (cutShort s) := by
  have hs : PairsKept s (cutShortSent s) :=
    .trans (.of_view rfl) (.ofSent fun x hx => by rw [inSet_foldl_addTo, hx, Bool.true_or])
  have hp (before : StationSet) (t : State) (st : Station) : PairsKept t (cutShortPeer before t st) := by
    unfold cutShortPeer
    split
    · exact .refl t
    · exact pairsKept_comparePeer t st
  exact (hs.trans (.foldl _ (hp _) _ _)).trans (.of_view rfl)

/-! ### Frames received and CONFIGURE (R117 to R121, R137) -/

theorem pairsKept_deliver (src : Station) (b : Body) : PairsKept s (deliver src b s) := by
  unfold deliver
  split
  · exact .of_view (pairView_tallyOpenArrives ..)
  · exact .of_view (pairView_tallyArrives ..)
  · split
    · exact .of_view rfl
    · unfold offerAnswer
      split
      · exact pairsKept_trySlot_of_tu s (slotAnswer_tu ..) _
      · split
        · exact pairsKept_dqAnswer s ..
        · exact .refl s

theorem pairsKept_takenFrame (src dst : Station) (b : Body) : PairsKept s (takenFrame src dst b s) := by
  unfold takenFrame
  split
  · split
    · exact pairsKept_lineFails s _
    · exact .refl s
  · split
    · exact .refl s
    · split
      · exact .of_view rfl
      · exact pairsKept_deliver s ..

/-- Members that CONFIGURE adds join the tallies-sent set (R171). -/
theorem pairsKept_makeConfigure (c : ConfigRecord) (m : BitVec 16) (j : StationSet) :
    PairsKept s (makeConfigure c m j s) := by
  refine .trans (.ofSent (m := s.tu.round.sent ||| j) fun x hx => ?_) (.of_view rfl)
  simp only [inSet, Bool.and_eq_true, BitVec.getLsbD_or, Bool.or_eq_true] at hx ⊢
  exact ⟨hx.1, .inl hx.2⟩

theorem pairsKept_tryConfigure : PairsKept s (tryConfigure s) := by
  unfold tryConfigure
  split
  · next c m j _ =>
    split
    · exact .trans (pairsKept_makeConfigure (leaveWaiting .configure s) c m j) (.of_view rfl)
    · exact .refl s
  · exact .refl s

theorem pairsKept_takeConfigure (p : ConfigParams) : PairsKept s (takeConfigure p s) := by
  unfold takeConfigure
  split
  · exact .of_view rfl
  · exact pairsKept_tryConfigure (settleWaiting (handTo _ s))

end Operations

end Sys2Proof.Machine

/-! ## What every command keeps of the pair tables (R140, R145, R147) -/
namespace Sys2Proof.Machine
open Safety

/-- A command answers a next state, and of the pair tables it changes only what may change between two openings. -/
def KeepsPairs (s : State) (o : Host.Outcome State Fault Refusal) : Prop := nextSatisfies o (PairsKept s)

section Exec
variable {s : State}

theorem keepsPairs_next {t : State} (h : PairsKept s t) : KeepsPairs s (.next t) := nextSatisfies_next.2 h

theorem keepsPairs_same : KeepsPairs s (.next s) := keepsPairs_next (.refl s)

/-- A step that stands under a condition. -/
theorem keepsPairs_ite {c : Prop} [Decidable c] {t : State} (h : c → PairsKept s t) :
    KeepsPairs s (if c then .next t else .next s) := by
  split
  · next hc => exact keepsPairs_next (h hc)
  · exact keepsPairs_same

/-- A command write: its work is done on the state with the command taken (R168). -/
theorem keepsPairs_intake (code seq : Byte) {work : State → State} (hw : ∀ t, PairsKept t (work t)) :
    KeepsPairs s (intake code seq work s) := by
  unfold intake
  split
  · exact keepsPairs_same
  · split
    · exact keepsPairs_next (.of_view rfl)
    · exact keepsPairs_next (hw (takeCommand code seq s))

theorem pairsKept_tested {test : State → Option Reason} {work : State → State} (hw : ∀ t, PairsKept t (work t)) (t : State) :
    PairsKept t (tested test work t) := by
  unfold tested
  split
  · exact .of_view rfl
  · exact hw t

theorem keepsPairs_completeFrame (src dst : Station) (b : Option Body) : KeepsPairs s (completeFrame src dst b s) := by
  unfold completeFrame
  split
  · split
    · split
      · exact keepsPairs_next (.of_view rfl)
      · exact keepsPairs_next (pairsKept_takenFrame (frameEnded s) src dst _)
    · exact keepsPairs_next (.of_view rfl)
  · exact keepsPairs_same

/-! ### The Card Table Unit (R24, R37, R43, R58) -/

theorem keepsPairs_claim : KeepsPairs s (execClaim s) := by
  unfold execClaim
  split
  · refine keepsPairs_ite fun _ => .of_view ((pairView_decideClaim ..).trans ?_)
    split <;> simp
  · exact keepsPairs_same

theorem keepsPairs_holdExpiry (i : Fin 256) : KeepsPairs s (execHoldExpiry i s) := by
  unfold execHoldExpiry
  split
  · split
    · split
      · exact keepsPairs_next (.of_view rfl)
      · exact keepsPairs_next (.of_tu (secondNotice_tu ..))
    · exact keepsPairs_same
  · exact keepsPairs_same

/-! ### Slots and the Deferred Queue (R67 to R101) -/

theorem keepsPairs_slotOpening : KeepsPairs s (execSlotOpening s) := by
  unfold execSlotOpening
  split
  · exact keepsPairs_ite fun _ => pairsKept_takeOpening (leaveWaiting .opening s) _
  · exact keepsPairs_same

theorem keepsPairs_replyWindowExpiry (n : Fin 32) : KeepsPairs s (execReplyWindowExpiry n s) := by
  unfold execReplyWindowExpiry
  split
  · exact keepsPairs_ite fun _ => pairsKept_trySlot_of_tu s (noAnswer_tu ..) _
  · exact keepsPairs_same

theorem keepsPairs_slotHoldExpiry (n : Fin 32) : KeepsPairs s (execSlotHoldExpiry n s) := by
  unfold execSlotHoldExpiry
  split
  · exact keepsPairs_ite fun _ => .of_tu (releaseHeld_tu s n.val _ .expired)
  · exact keepsPairs_same

theorem keepsPairs_dqWindowExpiry : KeepsPairs s (execDqWindowExpiry s) := by
  unfold execDqWindowExpiry
  split
  · exact keepsPairs_ite fun _ => pairsKept_dqDecide (putBackoff _ _ s) _
  · exact keepsPairs_same

theorem keepsPairs_dqReturnTake : KeepsPairs s (execDqReturnTake s) := by
  unfold execDqReturnTake
  split
  · exact keepsPairs_ite fun _ => pairsKept_takeRefund (leaveWaiting .dqReturn s) ..
  · exact keepsPairs_same

/-! ### The settlement round (R145 to R151) -/

theorem keepsPairs_tallyStep : KeepsPairs s (execTallyStep s) := by
  unfold execTallyStep
  split
  · exact keepsPairs_ite fun _ => pairsKept_tallyTo (leaveWaiting .tally s) ..
  · exact keepsPairs_same

theorem keepsPairs_receptionStep : KeepsPairs s (execReceptionStep s) := by
  unfold execReceptionStep
  split
  · exact keepsPairs_ite fun _ => pairsKept_receive (leaveWaiting _ s) _
  · exact keepsPairs_same

theorem keepsPairs_cutShortStep : KeepsPairs s (execCutShortStep s) := by
  unfold execCutShortStep
  split
  · exact keepsPairs_ite fun _ => pairsKept_cutShort (leaveWaiting .cutShort s)
  · exact keepsPairs_same

/-! ### The line and the Posting Store (R105 to R130) -/

theorem keepsPairs_bodyClash : KeepsPairs s (execBodyClash s) := by
  unfold execBodyClash
  split
  · simp only
    split
    · exact keepsPairs_next (pairsKept_lineFails (putReceiver .searching (stopSending (mapHead _ _ s))) _)
    · exact keepsPairs_next (.of_view rfl)
  · exact keepsPairs_same

/-- Out of a start-up a durable record's dependents leave the pair tables, and a waiting CONFIGURE is made (R127, R171). -/
theorem keepsPairs_writeCompletion (hs : s.tp.startup = .none) : KeepsPairs s (execWriteCompletion s) := by
  unfold execWriteCompletion
  split
  · next r rest _ =>
    split
    · simp only [hs, reduceCtorEq, if_false]
      have h : PairsKept s (releaseAll r.deps (commitHead r rest s)) := .of_view (pairView_releaseAll ..)
      exact keepsPairs_next (h.trans (pairsKept_tryConfigure (settleWaiting _)))
    · exact keepsPairs_same
  · exact keepsPairs_same

theorem keepsPairs_storeFault (hs : s.tp.startup = .none) : KeepsPairs s (execStoreFault s) := by
  unfold execStoreFault
  split
  · split
    · simp only [hs, reduceCtorEq, if_false]
      exact keepsPairs_next (.of_view (pairView_storeFaulted s))
    · exact keepsPairs_same
  · exact keepsPairs_same

/-! ### Every command -/

/-- Outside a start-up every command but an opening and the restarts keeps the pair tables so. -/
theorem exec_keepsPairs (c : Instr) (hs : s.tp.startup = .none) (hr : restarts c = false) (hc : c ≠ .roundOpening) :
    KeepsPairs s (exec c s) := by
  cases c with
  | reset | powerUp | powerFailure | resetInputAssert | resetInputRelease => cases hr
  | roundOpening => exact absurd rfl hc
  | reload => exact keepsPairs_ite fun h => absurd (hs.symm.trans h.2) Startup.noConfusion
  | configure => exact keepsPairs_intake _ _ (pairsKept_tested fun t => pairsKept_takeConfigure t _)
  | join => exact keepsPairs_intake _ _ (pairsKept_tested fun t => .of_view (pairView_joined t))
  | sell => exact keepsPairs_intake _ _ (pairsKept_tested fun _ => .of_view rfl)
  | close | freeze | unfreeze => exact keepsPairs_intake _ _ (pairsKept_tested fun _ => .of_tu (routeHomeOp_tu ..))
  | load | redeem | returnCard | inquire => exact keepsPairs_intake _ _ (pairsKept_tested fun _ => .of_tu (routeCard_tu ..))
  | confirm => exact keepsPairs_intake _ _ (pairsKept_tested fun _ => .of_tu (routeConfirm_tu ..))
  | cancel => exact keepsPairs_intake _ _ (pairsKept_tested fun _ => .of_tu (routeCancel_tu ..))
  | settle => exact keepsPairs_intake _ _ (pairsKept_tested fun _ => .of_view (pairView_takeSettle ..))
  | recount => exact keepsPairs_intake _ _ (pairsKept_tested fun _ => .of_view (pairView_takeRecount _))
  | takeNotice => exact keepsPairs_intake _ _ fun t => .of_tu (takeNotice_tu t)
  | clearEvents | setMask | status | readEvents => exact keepsPairs_intake _ _ fun _ => .of_view rfl
  | readCard | readCaplog | readDeferred | readPayout =>
    simp only [exec_readCard, exec_readCaplog, exec_readDeferred, exec_readPayout]
    refine keepsPairs_intake _ _ fun _ => ?_
    (repeat' split) <;> exact .of_view rfl
  | malformed => exact keepsPairs_ite fun _ => .of_view rfl
  | hold | drop | inquireFrame | homeOperationTake | noticeEntry =>
    simp only [exec, execHold, execDrop, execInquireFrame, execHomeOperationTake, execNoticeEntry]
    split
    · exact keepsPairs_ite fun _ => .of_tu (by simp)
    · exact keepsPairs_same
  | post | loadFrame | returnFrame | localRequestTake =>
    simp only [exec, execPost, execLoadFrame, execReturnFrame, execLocalRequestTake]
    split
    · exact keepsPairs_ite fun _ => .of_view (by simp)
    · exact keepsPairs_same
  | claim => exact keepsPairs_claim
  | holdExpiry i => exact keepsPairs_holdExpiry i
  | slotOpening => exact keepsPairs_slotOpening
  | replyWindowExpiry n => exact keepsPairs_replyWindowExpiry n
  | slotHoldExpiry n => exact keepsPairs_slotHoldExpiry n
  | offlineDecision n | slotDeferredEntry n | actorFiling n =>
    have hn := keepsPairs_next (pairsKept_stepIfGranted s n.val)
    have hs := keepsPairs_same (s := s)
    simp only [exec, execOfflineDecision, execSlotDeferredEntry, execActorFiling]
    split <;> assumption
  | forwarderChoice | computationCompletion | tallyOpenEntry | payoutRecord =>
    simp only [exec, execForwarderChoice, execComputationCompletion, execTallyOpenEntry, execPayoutRecord]
    split
    · exact keepsPairs_ite fun _ => .of_view rfl
    · exact keepsPairs_same
  | dqPendingStep => exact keepsPairs_next (pairsKept_dqStepIfGranted s)
  | dqWindowExpiry => exact keepsPairs_dqWindowExpiry
  | dqReturnTake => exact keepsPairs_dqReturnTake
  | tallyStep => exact keepsPairs_tallyStep
  | receptionStep => exact keepsPairs_receptionStep
  | cutShortStep => exact keepsPairs_cutShortStep
  | stall | holdOk | holdNo | claimOk | claimNo | postOk | postNo | loadOk | loadNo | returnOk | returnNo | balance
  | inquireNo | tallyOpen | tally | receiveQueueEntry => exact keepsPairs_completeFrame ..
  | bodyClash => exact keepsPairs_bodyClash
  | stuckTimerExpiry => exact keepsPairs_ite fun _ => pairsKept_lineFails s _
  | backoffExpiry | quietTimerExpiry | tallyTimerExpiry | idleGap | bodyLengthDiscard | startSymbol =>
    exact keepsPairs_ite fun _ => .of_view rfl
  | frameStart | arbitrationLost | frameSentWhole =>
    simp only [exec, execFrameStart, execArbitrationLost, execFrameSentWhole]
    (repeat' split) <;> exact keepsPairs_next (.of_view rfl)
  | storeFault => exact keepsPairs_storeFault hs
  | writeCompletion => exact keepsPairs_writeCompletion hs

theorem pairsKept_of_exec {c : Instr} {t : State} (h : exec c s = .next t) (hu : isUp s = true) (hr : restarts c = false)
    (hc : c ≠ .roundOpening) : PairsKept s t := by
  obtain ⟨u, hu, hk⟩ := exec_keepsPairs c ((isUp_iff s).1 hu).2 hr hc
  cases h.symm.trans hu
  exact hk

end Exec

/-- Settles O14: a mark is written over DISPUTED as DISPUTED alone, outside openings and restarts. -/
theorem disputedStays : Obligations.DisputedStays := fun _ _ _ st h hu hm hr hc =>
  ((pairsKept_of_exec h hu hr hc).marks hm).2 st

/-- Settles O15: a closing line is written by a filing alone, which finds its peer not yet in the tallies-sent set. -/
theorem closingLineFixed : Obligations.ClosingLineFixed := fun _ _ _ st h hu hl hr hc hs =>
  ⟨((pairsKept_of_exec h hu hr hc).lines hl).2 st hs, (pairsKept_of_exec h hu hr hc).sent st hs⟩

end Sys2Proof.Machine

/-! ## The figures of a peer and the totals over the MATCHED peers (R158 to R163) -/
namespace Sys2Proof.Machine

/-! ### The fee (R159) -/

section Fee
variable (rate : Nat)

@[simp] theorem feeOn_zero : feeOn 0 rate = 0 := by simp [feeOn]

@[simp] theorem feeOn_rate_zero (net : Int) : feeOn net 0 = 0 := by simp [feeOn]

/-- The fee on the opposite net is the opposite fee: the rounding reads the magnitude alone (R159). -/
@[simp] theorem feeOn_neg (net : Int) : feeOn (-net) rate = -feeOn net rate := by simp [feeOn]

theorem feeOn_of_pos {net : Int} (h : 0 < net) : feeOn net rate = (net * rate + 5000) / 10000 := by
  rw [feeOn, Int.sign_eq_one_of_pos h, one_mul]
  push_cast
  rw [abs_of_pos h]

theorem feeOn_of_neg {net : Int} (h : net < 0) : feeOn net rate = -((-net * rate + 5000) / 10000) := by
  rw [← feeOn_of_pos rate (Int.neg_pos_of_neg h), feeOn_neg, neg_neg]

end Fee

/-! ### The values of one peer are exact within R160's bound (R158 to R161) -/

section Entry
variable {p : PeerInput} {rate : Nat}

theorem toInt_netIn (h : sumsBounded p.line) :
    (peerEntry rate p).netIn.toInt = p.line.actRed.sum.toInt - p.line.actRet.sum.toInt := by
  obtain ⟨hl, hu⟩ := h p.line.actRed (by simp)
  obtain ⟨hl', hu'⟩ := h p.line.actRet (by simp)
  exact toInt_narrow48 (by omega) (by omega)

theorem toInt_netOut (h : sumsBounded p.line) :
    (peerEntry rate p).netOut.toInt = p.line.homeRed.sum.toInt - p.line.homeRet.sum.toInt := by
  obtain ⟨hl, hu⟩ := h p.line.homeRed (by simp)
  obtain ⟨hl', hu'⟩ := h p.line.homeRet (by simp)
  exact toInt_narrow48 (by omega) (by omega)

/-- A net of two sums within 2^43, charged at a tenth at most, gives a fee well inside 48 bits (R160). -/
theorem natAbs_feeOn_netIn_le (h : sumsBounded p.line) (hr : rate ≤ 1000) :
    (feeOn (peerEntry rate p).netIn.toInt rate).natAbs ≤ 2 ^ 44 / 10 + 1 := by
  obtain ⟨hl, hu⟩ := h p.line.actRed (by simp)
  obtain ⟨hl', hu'⟩ := h p.line.actRet (by simp)
  have hf := natAbs_feeOn_le_tenth (peerEntry rate p).netIn.toInt hr
  rw [toInt_netIn h] at hf ⊢
  omega

theorem toInt_feeIn (h : sumsBounded p.line) (hr : rate ≤ 1000) :
    (peerEntry rate p).feeIn.toInt = feeOn (peerEntry rate p).netIn.toInt rate := by
  have hf := natAbs_feeOn_netIn_le h hr
  exact toInt_narrow48 (x := feeOn (peerEntry rate p).netIn.toInt rate) (by omega) (by omega)

theorem toInt_line (h : sumsBounded p.line) (hr : rate ≤ 1000) :
    (peerEntry rate p).line.toInt = ((peerEntry rate p).netIn.toInt - (peerEntry rate p).feeIn.toInt) -
      (peerEntry rate p).netOut.toInt + p.line.homeLoad.sum.toInt - p.line.actLoad.sum.toInt := by
  have hs : (peerEntry rate p).line.toInt + (peerEntry rate p).feeIn.toInt = lineBeforeFee p.line :=
    line_add_feeIn p.station p.state h hr
  simp only [lineBeforeFee, ← toInt_netIn (rate := rate) h, ← toInt_netOut (rate := rate) h] at hs
  omega

end Entry

/-- Settles O21: no value of the entry leaves 48 bits, and the fee is read off by the sign of the net. -/
theorem peerFigures : Obligations.PeerFigures := by
  rintro rate p _ _ _ _ _ _ _ rfl hr rfl rfl rfl rfl rfl rfl hb
  have h : sumsBounded p.line := by
    simp only [sumsBounded, List.forall_mem_cons] at hb ⊢
    tauto
  refine ⟨toInt_netIn h, toInt_netOut h, ?_, ?_, ?_, toInt_line h hr⟩ <;> rw [toInt_feeIn h hr, toInt_netIn h]
  · rintro (hz | rfl)
    · rw [hz, feeOn_zero]
    · exact feeOn_rate_zero _
  · exact feeOn_of_pos rate
  · intro hn
    rw [feeOn_of_neg rate hn, Int.neg_sub]

/-! ### The totals (R162) -/

section Totals
variable {f : PeerEntry PairState → Sum48} {es : List (PeerEntry PairState)}

/-- A value already held in 48 bits is narrowed to itself (R160). -/
@[simp] theorem narrow48_toInt (v : Sum48) : narrow48 v.toInt = v :=
  BitVec.eq_of_toInt_eq (toInt_narrow48 (BitVec.le_toInt v) (BitVec.toInt_lt (x := v)))

@[simp] theorem matchedTotal_nil : matchedTotal f [] = 0 := rfl

/-- A MATCHED entry adds its value to the total, any other adds nothing (R162). -/
theorem matchedTotal_cons (e : PeerEntry PairState) :
    matchedTotal f (e :: es) = (if e.state = .matched then (f e).toInt else 0) + matchedTotal f es := by
  by_cases h : e.state = .matched <;> simp [matchedTotal, h]

theorem matchedTotal_of_none (h : ∀ e ∈ es, e.state ≠ .matched) : matchedTotal f es = 0 := by
  induction es with
  | nil => rfl
  | cons e es ih =>
    obtain ⟨he, hes⟩ := List.forall_mem_cons.1 h
    rw [matchedTotal_cons, if_neg he, ih hes, add_zero]

theorem matchedTotal_singleton {e : PeerEntry PairState} (h : e.state = .matched) : matchedTotal f [e] = (f e).toInt := by
  rw [matchedTotal_cons, if_pos h, matchedTotal_nil, add_zero]

/-- The total of values of at most b in magnitude lies within b times the number of peers. -/
theorem abs_matchedTotal_le {b : Int} (hb : 0 ≤ b) (h : ∀ e ∈ es, |(f e).toInt| ≤ b) :
    |matchedTotal f es| ≤ es.length * b := by
  induction es with
  | nil => simp
  | cons e es ih =>
    obtain ⟨he, hes⟩ := List.forall_mem_cons.1 h
    have hv : |if e.state = .matched then (f e).toInt else 0| ≤ b := by
      split
      · exact he
      · exact abs_zero.trans_le hb
    rw [matchedTotal_cons, List.length_cons, Nat.cast_succ, add_one_mul, add_comm]
    exact (abs_add_le _ _).trans (add_le_add (ih hes) hv)

/-- 61 peers with values within 2^41 give a total that fits into 48 bits (R160, R162). -/
theorem toInt_narrow48_matchedTotal (hn : es.length ≤ 61) (h : ∀ e ∈ es, -(2 ^ 41) ≤ (f e).toInt ∧ (f e).toInt < 2 ^ 41) :
    (narrow48 (matchedTotal f es)).toInt = matchedTotal f es := by
  have ht := abs_matchedTotal_le (by decide) fun e he => abs_le.2 ⟨(h e he).1, (h e he).2.le⟩
  obtain ⟨hl, hu⟩ := abs_le.1 ht
  exact toInt_narrow48 (by omega) (by omega)

end Totals

/-- Settles O23: both totals are one sum over the MATCHED entries, empty, of one value, or within 48 bits. -/
theorem payoutTotals : Obligations.PayoutTotals := by
  rintro i revised _ rfl
  have hlen : (i.peers.map (peerEntry i.rate)).length = i.peers.length := List.length_map _
  refine ⟨rfl, rfl, rfl, rfl, fun h => ?_, fun x hx hm => ?_, fun hn h => ?_, fun hn h => ?_⟩
  · have he : ∀ e ∈ i.peers.map (peerEntry i.rate), e.state ≠ .matched := List.forall_mem_map.2 h
    simp only [computePayout, matchedTotal_of_none he]
    decide
  · have he : (peerEntry i.rate x).state = .matched := hm
    simp only [computePayout, hx, List.map_cons, List.map_nil, matchedTotal_singleton he, narrow48_toInt, and_self]
  · exact toInt_narrow48_matchedTotal (hlen.trans_le hn) h
  · exact toInt_narrow48_matchedTotal (hlen.trans_le hn) h

end Sys2Proof.Machine

/-! ## STATUS, CLEAR-EVENTS, SET-MASK and READ-EVENTS (R12, R176, R180 to R182) -/
namespace Sys2Proof.Machine
open Safety

/-- The closing day of STATUS is a flag byte and a day of its own (R12, R176). -/
theorem append_optionDay (l : List Byte) (d : Option Day) :
    l ++ optionDay d = l ++ [if d.isSome then 1 else 0] ++ bytesOf 2 (d.getD 0).toNat := by
  rw [optionDay, List.append_cons]
  rfl

/-- STATUS reports station number 0 while UNCONFIGURED (R176). -/
theorem setWidth_statusStation (s : State) : (statusStation s).setWidth 8 =
    if s.tp.station = .unconfigured then 0 else s.tp.config.station.setWidth 8 := apply_ite (BitVec.setWidth 8) ..

/-- Settles O32: STATUS is accepted at its take with the bytes of the fields of R12. -/
theorem statusTaken : Obligations.StatusTaken := fun s seq hi => by
  rw [exec_status]
  obtain ⟨t, ht, hport, htp⟩ :=
    intake_accepted (code := 0x04) (seq := seq) (work := fun u => accept 0 (statusBytes u) u) hi rfl
  refine ⟨t, ht, ?_, hport⟩
  rw [htp, statusBytes, append_optionDay, setWidth_statusStation]
  rfl

/-- A mask keeps of the pending set the events in it, and NOTICE while a notice stands (R180). -/
theorem getLsbD_keepNotice {s : State} (hs : noticeLaw s) (m : Byte) (i : Nat) :
    (keepNotice s (s.tp.events &&& m)).getLsbD i =
      (s.tp.events.getLsbD i && (m.getLsbD i || (i == 0 && !s.tp.notices.isEmpty))) := by
  by_cases hn : s.tp.notices = []
  · simp [keepNotice, hn]
  · have hp : s.tp.events.getLsbD 0 = true := (isPending_notice s).symm.trans (hs.resolve_left hn)
    cases i with
    | zero => rw [keepNotice_shown s _ hn, hp]; simp [hn]
    | succ i =>
      have hb : (eventBit .notice).getLsbD (i + 1) = false := by
        simp [show eventBit .notice = BitVec.twoPow 8 0 from rfl, BitVec.getLsbD_twoPow]
      simp [keepNotice, hn, hb]

/-- Settles O35: the events kept are those not named, and NOTICE while a notice stands. -/
theorem clearEventsTaken : Obligations.ClearEventsTaken := fun s seq e hi hn =>
  ⟨_, intake_of_idle 0x52 seq s (clearEvents e) hi, rfl, rfl, fun i h8 => by
    have hbit : (~~~e).getLsbD i = !e.getLsbD i := by simp [h8]
    rw [← hbit]
    exact getLsbD_keepNotice hn (~~~e) i⟩

/-- Settles O36: the events kept are those of the new mask, and NOTICE while a notice stands; READ-EVENTS is accepted with
its three bytes. -/
theorem setMaskAndReadEvents : Obligations.SetMaskAndReadEvents := fun s seq m f hi =>
  ⟨fun hn => ⟨_, intake_of_idle 0x53 seq s (setMask m f) hi, rfl, rfl, fun i _ => getLsbD_keepNotice hn m i⟩,
    intake_accepted (code := 0x51) (work := fun u => accept 0 (eventBytes u) u) hi rfl⟩

end Sys2Proof.Machine

/-! ## The command state (R12, R168)

`p.command` is what the command law reads of the Till Port `p`. An operation leaves it, ends the command in hand
(`CommandView.ended`), or hands the command to its owner (`CommandView.handed`). -/
namespace Sys2Proof.Machine
open Safety

/-! ### The command view -/

/-- Whether the part is up, whether its reload comes next, BUSY, whether a command is in hand, PENDING. -/
structure CommandView where
  up : Bool
  reloading : Bool
  busy : Bool
  inHand : Bool
  pending : Bool

def Tp.command (p : Tp) : CommandView where
  up := p.powered && !p.rstHeld && decide (p.startup = .none)
  reloading := decide (p.startup = .reloading)
  busy := p.busy
  inHand := p.hand.isSome
  pending := decide (p.response.result = .pending)

namespace CommandView
variable {v : CommandView}

/-- The command law (R168). -/
def Lawful (v : CommandView) : Prop :=
  (v.up = true → v.busy = v.inHand ∧ v.pending = v.busy) ∧ (v.reloading = true → v.pending = false)

/-- The command in hand is answered: IDLE, nothing in hand, not PENDING. -/
def ended (v : CommandView) : CommandView := { v with busy := false, inHand := false, pending := false }

/-- A command is taken: BUSY and PENDING, with no owner yet. -/
def taken (v : CommandView) : CommandView := { v with busy := true, inHand := false, pending := true }

/-- The command taken waits with an owner. -/
def handed (v : CommandView) : CommandView := { v with inHand := true }

theorem lawful_ended (v : CommandView) : v.ended.Lawful := ⟨fun _ => ⟨rfl, rfl⟩, fun _ => rfl⟩

/-- A command is taken outside a start-up alone. -/
theorem lawful_handed_taken (h : v.reloading = false) : v.taken.handed.Lawful :=
  ⟨fun _ => ⟨rfl, rfl⟩, fun hr => absurd (h.symm.trans hr) Bool.false_ne_true⟩

/-- A part that is not up, its response not PENDING. -/
theorem lawful_of_down (hu : v.up = false) (hp : v.reloading = true → v.pending = false) : v.Lawful :=
  ⟨fun h => absurd (hu.symm.trans h) Bool.false_ne_true, hp⟩

/-- What the work on a command in hand does: it leaves the command, or ends it. -/
def EndsOrKeeps (v w : CommandView) : Prop := w = v ∨ w = v.ended

/-- What the take of a command does: it ends the command, or hands it to its owner. -/
def Decides (v w : CommandView) : Prop := w = v.ended ∨ w = v.handed

theorem EndsOrKeeps.trans {w x : CommandView} (h : EndsOrKeeps v w) (h' : EndsOrKeeps w x) : EndsOrKeeps v x := by
  rcases h with rfl | rfl
  · exact h'
  · exact .inr (h'.elim id id)

theorem EndsOrKeeps.lawful {w : CommandView} (h : EndsOrKeeps v w) (hv : v.Lawful) : w.Lawful := by
  rcases h with rfl | rfl
  · exact hv
  · exact lawful_ended v

theorem Decides.lawful {w : CommandView} (h : Decides v.taken w) (hr : v.reloading = false) : w.Lawful := by
  rcases h with rfl | rfl
  · exact lawful_ended v.taken
  · exact lawful_handed_taken hr

end CommandView

theorem commandLaw_iff (s : State) : commandLaw s ↔ s.tp.command.Lawful := by
  have hp (b : Bool) : (s.tp.response.result = .pending ↔ b = true) ↔ decide (s.tp.response.result = .pending) = b := by
    cases b <;> simp
  simp only [commandLaw, CommandView.Lawful, Tp.command, hp, decide_eq_true_iff, decide_eq_false_iff_not, isUp, isRunning,
    ne_eq]

/-! ### Writes of the Till Port -/

section Writes
variable (s : State)

/-- The completion queue and the events are no part of the command state. -/
@[simp] theorem command_withQueue (p : Tp) (ns : List Notice) (k : Nat) (e : BitVec 8) :
    Tp.command { p with notices := ns, taken := k, events := e } = p.command := rfl

theorem command_accept (g : Tag) (d : List Byte) : (accept g d s).tp.command = s.tp.command.ended := rfl
theorem command_takeCommand (code seq : Byte) : (takeCommand code seq s).tp.command = s.tp.command.taken := rfl

/-- A fold of steps that leave the command state leaves it. -/
theorem command_foldl {α : Type} {f : State → α → State} (h : ∀ s a, (f s a).tp.command = s.tp.command) (l : List α)
    (s : State) : (l.foldl f s).tp.command = s.tp.command := by
  induction l generalizing s with
  | nil => rfl
  | cons a l ih => rw [List.foldl_cons, ih, h]

end Writes

/-! ### Operations that leave the Till Port -/

section TillPort
variable (s : State)

/-! The Card Table Unit -/

@[simp] theorem answerNow_tp (d : Station) (b : Body) : (answerNow d b s).tp = s.tp := rfl
@[simp] theorem popLine_tp : (popLine s).tp = s.tp := rfl
@[simp] theorem popLocal_tp : (popLocal s).tp = s.tp := rfl
@[simp] theorem applyCapture_tp (src : Station) (g : Tag) (kind : TagKind) (k amount : Nat) :
    (applyCapture src g kind k amount s).tp = s.tp := rfl
@[simp] theorem applyLoad_tp (src : Station) (g : Tag) (k amount : Nat) : (applyLoad src g k amount s).tp = s.tp := rfl
@[simp] theorem applyReturn_tp (src : Station) (g o : Tag) (k amount : Nat) :
    (applyReturn src g o k amount s).tp = s.tp := rfl

@[simp] theorem answerAfterRecords_tp (d : Station) (b : Body) : (answerAfterRecords d b s).tp = s.tp := by
  unfold answerAfterRecords
  split <;> rfl

@[simp] theorem decideHold_tp (src : Station) (g : Tag) (card : CardNo) (check : Check) (amount : Nat) (split : Bool) :
    (decideHold src g card check amount split s).tp = s.tp := by
  simp only [decideHold]
  (repeat' split) <;> rfl

@[simp] theorem decideClaim_tp (src : Station) (g : Tag) (card : CardNo) (id : HoldId) (amount : Nat) (retry : Bool) :
    (decideClaim src g card id amount retry s).tp = s.tp := by
  simp only [decideClaim]
  (repeat' split) <;> simp

@[simp] theorem decideDrop_tp (src : Station) (g : Tag) (id : HoldId) : (decideDrop src g id s).tp = s.tp := by
  unfold decideDrop
  (repeat' split) <;> rfl

@[simp] theorem applyPost_tp (src : Station) (g : Tag) (k amount taken : Nat) (r : Reason) :
    (applyPost src g k amount taken r s).tp = s.tp := by
  unfold applyPost
  split <;> rfl

@[simp] theorem decidePost_tp (src : Station) (g : Tag) (card : CardNo) (check : Check) (amount : Nat) :
    (decidePost src g card check amount s).tp = s.tp := by
  simp only [decidePost]
  (repeat' split) <;> simp

@[simp] theorem decideLoad_tp (src : Station) (g : Tag) (card : CardNo) (check : Check) (amount : Nat) :
    (decideLoad src g card check amount s).tp = s.tp := by
  simp only [decideLoad]
  (repeat' split) <;> simp

@[simp] theorem decideReturn_tp (src : Station) (g : Tag) (card : CardNo) (o : Tag) (amount : Nat) :
    (decideReturn src g card o amount s).tp = s.tp := by
  simp only [decideReturn]
  (repeat' split) <;> simp

@[simp] theorem decideInquire_tp (src : Station) (g : Tag) (card : CardNo) (check : Check) (asked : Option Tag) :
    (decideInquire src g card check asked s).tp = s.tp := by
  simp only [decideInquire]
  (repeat' split) <;> simp

/-! Slots -/

@[simp] theorem fileStep_tp (n : Nat) (sl : Slot) (p : FilePos) (amount : Nat) (day : Option Day) (m : Notice) :
    (fileStep n sl p amount day m s).tp = s.tp := rfl
@[simp] theorem joinEntry_tp (n : Nat) (sl : Slot) (e : DeferredEntry) (m : Notice) : (joinEntry n sl e m s).tp = s.tp := rfl
@[simp] theorem slotHeld_tp (n : Nat) (sl : Slot) (id : HoldId) (grant avail : Nat) (b : Bool) :
    (slotHeld n sl id grant avail b s).tp = s.tp := rfl

@[simp] theorem sendDrop_tp (sl : Slot) : (sendDrop sl s).tp = s.tp := by
  unfold sendDrop
  (repeat' split) <;> rfl

@[simp] theorem releaseHeld_tp (n : Nat) (sl : Slot) (o : NoticeOutcome) : (releaseHeld n sl o s).tp = s.tp := by
  simp [releaseHeld]

@[simp] theorem tagInquiry_tp (n : Nat) (sl : Slot) : (tagInquiry n sl s).tp = s.tp := by
  unfold tagInquiry
  split <;> rfl

@[simp] theorem redeemUnanswered_tp (n : Nat) (sl : Slot) (m : Notice) : (redeemUnanswered n sl m s).tp = s.tp := by
  unfold redeemUnanswered
  split <;> rfl

@[simp] theorem noAnswer_tp (n : Nat) (sl : Slot) : (noAnswer n sl s).tp = s.tp := by
  unfold noAnswer
  split <;> simp

@[simp] theorem withdrawRequest_tp (n : Nat) (g : Tag) : (withdrawRequest n g s).tp = s.tp := by
  unfold withdrawRequest
  split <;> rfl

@[simp] theorem slotClaimNo_tp (n : Nat) (sl : Slot) (r : Reason) : (slotClaimNo n sl r s).tp = s.tp := by
  unfold slotClaimNo
  split <;> simp

@[simp] theorem slotBalance_tp (n : Nat) (sl : Slot) (c : CardState) (bal avail : Nat) (q : TagResult) :
    (slotBalance n sl c bal avail q s).tp = s.tp := by
  unfold slotBalance
  split <;> rfl

@[simp] theorem slotAnswer_tp (n : Nat) (sl : Slot) (b : Body) : (slotAnswer n sl b s).tp = s.tp := by
  unfold slotAnswer
  (repeat' split) <;> simp

/-! The settlement round -/

@[simp] theorem startSending_tp : (startSending s).tp = s.tp := rfl

@[simp] theorem comparePeer_tp (st : Station) : (comparePeer st s).tp = s.tp := by
  unfold comparePeer
  split <;> rfl

@[simp] theorem restartComputation_tp : (restartComputation s).tp = s.tp := by
  unfold restartComputation
  split <;> rfl

@[simp] theorem tallyTo_tp (st : Station) (rest : List Station) : (tallyTo st rest s).tp = s.tp := by
  simp only [tallyTo]
  split <;> simp

@[simp] theorem tallyArrives_tp (src : Station) (d : Day) (b : PairLine) : (tallyArrives src d b s).tp = s.tp := by
  unfold tallyArrives
  split <;> rfl

@[simp] theorem receive_tp (i : Inbound) : (receive i s).tp = s.tp := by
  simp only [receive]
  split <;> simp

@[simp] theorem cutShortPeer_tp (before : StationSet) (st : Station) : (cutShortPeer before s st).tp = s.tp := by
  unfold cutShortPeer
  split <;> simp

@[simp] theorem resumeRound_tp : (resumeRound s).tp = s.tp := by
  unfold resumeRound
  split <;> rfl

/-! Release and store fault -/

@[simp] theorem enteredHold_tp (g : Tag) : (enteredHold s g).tp = s.tp := by
  unfold enteredHold
  split <;> rfl

@[simp] theorem releaseSlotFrame_tp (n : Nat) (g : Tag) (d : Station) (b : Body) :
    (releaseSlotFrame n g d b s).tp = s.tp := by
  unfold releaseSlotFrame
  (repeat' split) <;> rfl

@[simp] theorem releaseDqFrame_tp (d : Station) (b : Body) : (releaseDqFrame d b s).tp = s.tp := by
  unfold releaseDqFrame
  split <;> rfl

@[simp] theorem faultSlot_tp (n : Nat) : (faultSlot s n).tp = s.tp := by
  unfold faultSlot
  (repeat' split) <;> rfl

@[simp] theorem faultDq_tp : (faultDq s).tp = s.tp := rfl
@[simp] theorem faultTu_tp : (faultTu s).tp = s.tp := rfl

end TillPort

/-! ### Operations that leave the command state -/

section Left
variable (s : State)

/-! Slots and the Deferred Queue -/

@[simp] theorem command_fileActor (home : Station) (p : FilePos) (amount : Nat) (day : Day) :
    (fileActor home p amount day s).1.tp.command = s.tp.command := by rw [fileActor_only]; rfl

@[simp] theorem command_performSlotStep (n : Nat) : (performSlotStep n s).tp.command = s.tp.command := by
  unfold performSlotStep
  (repeat' split) <;> simp

@[simp] theorem command_stepIfGranted (n : Nat) : (stepIfGranted n s).tp.command = s.tp.command := by
  unfold stepIfGranted
  split <;> simp

@[simp] theorem command_trySlot (n : Nat) : (trySlot n s).tp.command = s.tp.command := by simp [trySlot]

@[simp] theorem command_lineNoAnswer (n : Nat) : (lineNoAnswer s n).tp.command = s.tp.command := by
  unfold lineNoAnswer
  (repeat' split) <;> simp

@[simp] theorem command_lineFails (l : LineState) : (lineFails l s).tp.command = s.tp.command :=
  command_foldl command_lineNoAnswer ..

@[simp] theorem command_enterDues (n : Nat) : (enterDues n s).tp.command = s.tp.command := by
  induction n generalizing s with
  | zero => rfl
  | succ n ih =>
    unfold enterDues
    split
    · rw [ih, enterDue_tp]; rfl
    · rfl

@[simp] theorem command_performDqStep : (performDqStep s).tp.command = s.tp.command := by
  simp only [performDqStep]
  (repeat' split) <;> simp

@[simp] theorem command_dqStepIfGranted : (dqStepIfGranted s).tp.command = s.tp.command := by
  unfold dqStepIfGranted
  split <;> simp

@[simp] theorem command_dqDecide (w : DqStep) : (dqDecide w s).tp.command = s.tp.command := by simp [dqDecide]

@[simp] theorem command_dqAnswer (e : DeferredEntry) (b : Body) : (dqAnswer e b s).tp.command = s.tp.command := by
  unfold dqAnswer
  (repeat' split) <;> simp

@[simp] theorem command_offerAnswer (src : Station) (b : Body) : (offerAnswer src b s).tp.command = s.tp.command := by
  unfold offerAnswer
  (repeat' split) <;> simp

/-! The settlement round and the line -/

@[simp] theorem command_tallyOpenArrives (src : Station) (d : Day) :
    (tallyOpenArrives src d s).tp.command = s.tp.command := by
  unfold tallyOpenArrives
  (repeat' split) <;> rfl

@[simp] theorem command_cutShort : (cutShort s).tp.command = s.tp.command := by
  simp [cutShort, command_foldl fun t st => congrArg Tp.command (cutShortPeer_tp t _ st)]

@[simp] theorem command_deliver (src : Station) (b : Body) : (deliver src b s).tp.command = s.tp.command := by
  unfold deliver
  (repeat' split) <;> simp

@[simp] theorem command_takenFrame (src dst : Station) (b : Body) : (takenFrame src dst b s).tp.command = s.tp.command := by
  unfold takenFrame
  (repeat' split) <;> simp

/-! The Posting Store -/

@[simp] theorem command_secondNotice (h : LiveHold) (n : Notice) (asked : Nat) :
    (secondNotice h n asked s).tp.command = s.tp.command := by
  unfold secondNotice
  split <;> rfl

@[simp] theorem command_releasePlaced (n : Notice) : (releasePlaced n s).tp.command = s.tp.command := by
  unfold releasePlaced
  split <;> simp

@[simp] theorem command_releasePayout (d : Day) : (releasePayout d s).tp.command = s.tp.command := by
  unfold releasePayout
  split <;> rfl

@[simp] theorem command_faultDependent (d : Dependent) : (faultDependent s d).tp.command = s.tp.command := by
  unfold faultDependent
  (repeat' split) <;> rfl

@[simp] theorem command_faultHold (e : Nat × LiveHold) : (faultHold s e).tp.command = s.tp.command := by
  simp only [faultHold]
  split <;> rfl

@[simp] theorem command_faultSlots : (faultSlots s).tp.command = s.tp.command :=
  (command_foldl (fun t n => congrArg Tp.command (faultSlot_tp t n)) ..).trans (command_enterDues ..)

/-- A waiting CONFIGURE that is made stays in hand until its record is durable (R137). -/
@[simp] theorem command_tryConfigure : (tryConfigure s).tp.command = s.tp.command := by
  unfold tryConfigure
  split
  · next c m j hh =>
    split
    · simp [makeConfigure, Tp.command, hh]
    · rfl
  · rfl

@[simp] theorem command_clock : (clock s).tp.command = s.tp.command := by
  unfold clock
  split <;> rfl

end Left

/-! ### Operations that end the command in hand -/

section Ended
variable (s : State)

theorem command_takeHomeOp (op : HomeOp) : (takeHomeOp op s).tp.command = s.tp.command.ended := by
  simp only [takeHomeOp]
  (repeat' split) <;> rfl

theorem command_takeLocal (r : LocalReq) : (takeLocal r s).tp.command = s.tp.command.ended := by
  cases r with
  | load => simp only [takeLocal, takeLocalLoad]; (repeat' split) <;> rfl
  | redeem => simp only [takeLocal, takeLocalRedeem]; (repeat' split) <;> rfl
  | ret => simp only [takeLocal, takeLocalReturn]; (repeat' split) <;> rfl
  | inquire => simp only [takeLocal, takeLocalInquire]; (repeat' split) <;> rfl
  | confirm => simp only [takeLocal, takeLocalConfirm]; (repeat' split) <;> rfl
  | cancel =>
    simp only [takeLocal, takeLocalCancel]
    split
    · rfl
    · rw [command_accept, command_secondNotice, freeEntry_tp]

theorem command_takeOpening (r : OpenReq) : (takeOpening r s).tp.command = s.tp.command.ended := by
  simp only [takeOpening]
  split
  · rfl
  · split
    · rfl
    · split
      · rw [command_trySlot, noAnswer_tp]
        rfl
      · rfl

theorem command_takeRefund (card : CardNo) (g : Tag) (amount : Nat) :
    (takeRefund card g amount s).tp.command = s.tp.command.ended := by
  unfold takeRefund
  split
  · exact command_takeOpening ..
  · split <;> rfl

theorem command_confirmSlot (g : Tag) (amount : Nat) : (confirmSlot g amount s).tp.command = s.tp.command.ended := by
  simp only [confirmSlot]
  (repeat' split) <;> rfl

theorem command_cancelSlot (g : Tag) : (cancelSlot g s).tp.command = s.tp.command.ended := by
  unfold cancelSlot
  split
  · rfl
  · rw [command_accept, releaseHeld_tp]

theorem command_takeRecount : (takeRecount s).tp.command = s.tp.command.ended := by
  unfold takeRecount
  (repeat' split) <;> rfl

theorem command_joined : (joined s).tp.command = s.tp.command.ended := by
  rw [joined, resumeRound_tp]
  rfl

theorem command_takeNotice : (takeNotice s).tp.command = s.tp.command.ended := by
  unfold takeNotice
  split
  · rw [command_enterDues]; rfl
  · rfl

end Ended

/-! ### Takes of a command (R67, R74, R75, R142, R168 to R171) -/

section Takes
variable (s : State)
open CommandView

theorem decides_tested {test : State → Option Reason} {work : State → State}
    (hw : ∀ t, Decides t.tp.command (work t).tp.command) (t : State) :
    Decides t.tp.command (tested test work t).tp.command := by
  unfold tested
  split
  · exact .inl rfl
  · exact hw t

theorem decides_takeConfigure (p : ConfigParams) : Decides s.tp.command (takeConfigure p s).tp.command := by
  unfold takeConfigure
  split
  · exact .inl rfl
  · exact .inr (command_tryConfigure _)

theorem decides_takeSettle (d : Day) : Decides s.tp.command (takeSettle d s).tp.command := by
  unfold takeSettle
  split
  · exact .inl rfl
  · exact .inl rfl
  · exact .inl rfl
  all_goals
    split
    · exact .inl rfl
    · exact .inr rfl

theorem decides_routeHomeOp (card : CardNo) (op : HomeOp) : Decides s.tp.command (routeHomeOp card op s).tp.command := by
  unfold routeHomeOp
  split
  · exact .inr rfl
  · exact .inl rfl

theorem decides_routeForeign (r : OpenReq) : Decides s.tp.command (routeForeign r s).tp.command := by
  unfold routeForeign
  split
  · exact .inl rfl
  · split <;> exact .inr rfl

theorem decides_routeCard (own : LocalReq) (r : OpenReq) : Decides s.tp.command (routeCard own r s).tp.command := by
  unfold routeCard
  split
  · exact .inr rfl
  · split
    · exact .inl rfl
    · exact decides_routeForeign s r

theorem decides_routeConfirm (g : Tag) (amount : Nat) : Decides s.tp.command (routeConfirm g amount s).tp.command := by
  unfold routeConfirm
  split
  · split
    · exact .inl rfl
    · exact .inr rfl
  · exact .inl (command_confirmSlot ..)

theorem decides_routeCancel (g : Tag) : Decides s.tp.command (routeCancel g s).tp.command := by
  unfold routeCancel
  split
  · exact .inr rfl
  · exact .inl (command_cancelSlot ..)

end Takes

/-! ### Release and store fault (R127, R130) -/

section Store
variable (s : State)
open CommandView

theorem endsOrKeeps_releaseOpened (d : Day) (b : Bool) : EndsOrKeeps s.tp.command (releaseOpened d b s).tp.command := by
  cases b with
  | true => exact .inr rfl
  | false => exact .inl rfl

theorem endsOrKeeps_release (d : Dependent) : EndsOrKeeps s.tp.command (release d s).tp.command := by
  cases d with
  | answer | slotNotice | loss | tally => exact .inl rfl
  | placed => exact .inl (command_releasePlaced ..)
  | slotFrame => exact .inl (congrArg Tp.command (releaseSlotFrame_tp ..))
  | dqFrame => exact .inl (congrArg Tp.command (releaseDqFrame_tp ..))
  | configured => exact .inr rfl
  | opened => exact endsOrKeeps_releaseOpened ..
  | payoutMade => exact .inl (command_releasePayout ..)

theorem endsOrKeeps_releaseAll (ds : List Dependent) : EndsOrKeeps s.tp.command (releaseAll ds s).tp.command := by
  induction ds generalizing s with
  | nil => exact .inl rfl
  | cons d ds ih => exact (endsOrKeeps_release s d).trans (ih (release d s))

theorem endsOrKeeps_faultTp : EndsOrKeeps s.tp.command (faultTp s).tp.command := by
  simp only [faultTp]
  split
  · exact .inr rfl
  · exact .inl rfl

theorem endsOrKeeps_storeFaulted : EndsOrKeeps s.tp.command (storeFaulted s).tp.command := by
  simp only [storeFaulted]
  refine .trans (.inl ?_) (endsOrKeeps_faultTp _)
  rw [faultTu_tp, faultDq_tp, command_faultSlots, command_foldl command_faultHold, command_foldl command_faultDependent]
  rfl

end Store
end Sys2Proof.Machine

/-! ## Every step keeps the command law (R168) -/
namespace Sys2Proof.Machine
open Safety CommandView

/-- A command answers a next state, and keeps the command law. -/
def KeepsCommand (s : State) (o : Host.Outcome State Fault Refusal) : Prop :=
  nextSatisfies o fun t => s.tp.command.Lawful → t.tp.command.Lawful

section Exec
variable {s : State}

theorem keepsCommand_next {t : State} (h : s.tp.command.Lawful → t.tp.command.Lawful) : KeepsCommand s (.next t) :=
  nextSatisfies_next.2 h

theorem keepsCommand_same {t : State} (h : t.tp.command = s.tp.command) : KeepsCommand s (.next t) :=
  keepsCommand_next (EndsOrKeeps.lawful (.inl h))

theorem keepsCommand_ended {t u : State} (h : t.tp.command = u.tp.command.ended) : KeepsCommand s (.next t) :=
  keepsCommand_next fun _ => h ▸ lawful_ended _

theorem keepsCommand_ite {c : Prop} [Decidable c] {t u : State} (h : KeepsCommand s (.next t))
    (h' : KeepsCommand s (.next u)) :
    KeepsCommand s (if c then .next t else .next u) := by
  split <;> assumption

/-- A command write is taken outside a start-up alone; its work then ends the command or hands it to its owner (R10, R132,
R168). -/
theorem keepsCommand_intake (code seq : Byte) {work : State → State}
    (hw : ∀ t, Decides t.tp.command (work t).tp.command) : KeepsCommand s (intake code seq work s) := by
  unfold intake
  split
  · exact keepsCommand_same rfl
  · split
    · exact keepsCommand_same rfl
    · next hb =>
      have hr : s.tp.command.reloading = false := by
        have hs : s.tp.startup = .none := by simp_all [refusesBusy]
        simp [Tp.command, hs]
      have hd := hw (takeCommand code seq s)
      rw [command_takeCommand] at hd
      exact keepsCommand_next fun _ => hd.lawful hr

theorem keepsCommand_completeFrame (src dst : Station) (b : Option Body) : KeepsCommand s (completeFrame src dst b s) := by
  unfold completeFrame
  (repeat' split) <;> exact keepsCommand_same (by simp)

/-! ### Restarts (R128, R132, R138, R174, R175) -/

theorem lawful_startUpSteps (cause : Cause) (u : State) : (startUpSteps cause u).tp.command.Lawful :=
  lawful_of_down (Bool.and_false _) fun _ => rfl

theorem lawful_stopped (u : State) : (stopped u).tp.command.Lawful := lawful_ended (stopped u).tp.command

theorem lawful_beginReset : (beginReset s).tp.command.Lawful := by
  simp only [beginReset]
  split
  · exact lawful_startUpSteps ..
  · exact lawful_of_down (Bool.and_false _) fun h => Bool.noConfusion h

/-- The reload ends with nothing in hand, and leaves the response record, which is not PENDING (R132). -/
theorem keepsCommand_reload : KeepsCommand s (execReload s) := by
  unfold execReload
  split
  · next h =>
    refine keepsCommand_next fun hs => ?_
    have hp : (reloaded s).tp.command.pending = false := hs.2 (decide_eq_true h.2)
    exact ⟨fun _ => ⟨rfl, hp⟩, fun _ => hp⟩
  · exact keepsCommand_same rfl

theorem keepsCommand_powerUp : KeepsCommand s (execPowerUp s) := by
  unfold execPowerUp
  split
  · exact keepsCommand_same rfl
  · split
    · next hh => exact keepsCommand_next fun hs => lawful_of_down (by simp [Tp.command, hh]) hs.2
    · exact keepsCommand_next fun _ => lawful_startUpSteps ..

theorem keepsCommand_resetInputRelease : KeepsCommand s (execResetInputRelease s) := by
  unfold execResetInputRelease
  split
  · split
    · exact keepsCommand_next fun _ => lawful_startUpSteps ..
    · next hp => exact keepsCommand_next fun hs => lawful_of_down (by simp [Tp.command, hp]) hs.2
  · exact keepsCommand_same rfl

/-! ### The Posting Store (R125, R127, R129) -/

theorem keepsCommand_writeCompletion : KeepsCommand s (execWriteCompletion s) := by
  unfold execWriteCompletion
  split
  · next r rest _ =>
    split
    · refine keepsCommand_ite (keepsCommand_next fun _ => lawful_startUpSteps ..) (keepsCommand_next ?_)
      rw [command_tryConfigure, settleWaiting_tp]
      exact (endsOrKeeps_releaseAll (commitHead r rest s) r.deps).lawful
    · exact keepsCommand_same rfl
  · exact keepsCommand_same rfl

theorem keepsCommand_storeFault : KeepsCommand s (execStoreFault s) := by
  unfold execStoreFault
  split
  · split
    · exact keepsCommand_ite (keepsCommand_next fun _ => lawful_startUpSteps ..)
        (keepsCommand_next (endsOrKeeps_storeFaulted s).lawful)
    · exact keepsCommand_same rfl
  · exact keepsCommand_same rfl

/-! ### Takes of a command that waits with its owner (R24, R58, R67, R100) -/

theorem keepsCommand_homeOperationTake : KeepsCommand s (execHomeOperationTake s) := by
  unfold execHomeOperationTake
  split
  · exact keepsCommand_ite (keepsCommand_ended (command_takeHomeOp (popLocal s) _)) (keepsCommand_same rfl)
  · exact keepsCommand_same rfl

theorem keepsCommand_localRequestTake : KeepsCommand s (execLocalRequestTake s) := by
  unfold execLocalRequestTake
  split
  · exact keepsCommand_ite (keepsCommand_ended (command_takeLocal (popLocal s) _)) (keepsCommand_same rfl)
  · exact keepsCommand_same rfl

theorem keepsCommand_slotOpening : KeepsCommand s (execSlotOpening s) := by
  unfold execSlotOpening
  split
  · exact keepsCommand_ite (keepsCommand_ended (command_takeOpening (leaveWaiting .opening s) _)) (keepsCommand_same rfl)
  · exact keepsCommand_same rfl

theorem keepsCommand_dqReturnTake : KeepsCommand s (execDqReturnTake s) := by
  unfold execDqReturnTake
  split
  · exact keepsCommand_ite (keepsCommand_ended (command_takeRefund (leaveWaiting .dqReturn s) ..)) (keepsCommand_same rfl)
  · exact keepsCommand_same rfl

/-! ### Every command -/

/-- Every command keeps the command law: the till's commands by their takes, the restarts outright, and most others leave the
command state. -/
theorem exec_keepsCommand (c : Instr) (s : State) : KeepsCommand s (exec c s) := by
  cases c with
  | configure => exact keepsCommand_intake _ _ (decides_tested fun t => decides_takeConfigure t _)
  | join => exact keepsCommand_intake _ _ (decides_tested fun t => .inl (command_joined t))
  | sell => exact keepsCommand_intake _ _ (decides_tested fun _ => .inr rfl)
  | close | freeze | unfreeze => exact keepsCommand_intake _ _ (decides_tested fun t => decides_routeHomeOp t ..)
  | load | redeem | returnCard | inquire => exact keepsCommand_intake _ _ (decides_tested fun t => decides_routeCard t ..)
  | confirm => exact keepsCommand_intake _ _ (decides_tested fun t => decides_routeConfirm t ..)
  | cancel => exact keepsCommand_intake _ _ (decides_tested fun t => decides_routeCancel t _)
  | settle => exact keepsCommand_intake _ _ (decides_tested fun t => decides_takeSettle t _)
  | recount => exact keepsCommand_intake _ _ (decides_tested fun t => .inl (command_takeRecount t))
  | takeNotice => exact keepsCommand_intake _ _ fun t => .inl (command_takeNotice t)
  | clearEvents | setMask | status | readEvents => exact keepsCommand_intake _ _ fun _ => .inl rfl
  | readCard | readCaplog | readDeferred | readPayout =>
    simp only [exec_readCard, exec_readCaplog, exec_readDeferred, exec_readPayout]
    refine keepsCommand_intake _ _ fun _ => .inl ?_
    (repeat' split) <;> rfl
  | malformed => exact keepsCommand_ite (keepsCommand_same rfl) (keepsCommand_same rfl)
  | reset => exact keepsCommand_ite (keepsCommand_next fun _ => lawful_beginReset) (keepsCommand_same rfl)
  | powerUp => exact keepsCommand_powerUp
  | powerFailure => exact keepsCommand_ite (keepsCommand_next fun _ => lawful_stopped _) (keepsCommand_same rfl)
  | resetInputAssert => exact keepsCommand_ite (keepsCommand_same rfl) (keepsCommand_next fun _ => lawful_stopped _)
  | resetInputRelease => exact keepsCommand_resetInputRelease
  | reload => exact keepsCommand_reload
  | homeOperationTake => exact keepsCommand_homeOperationTake
  | localRequestTake => exact keepsCommand_localRequestTake
  | slotOpening => exact keepsCommand_slotOpening
  | dqReturnTake => exact keepsCommand_dqReturnTake
  | storeFault => exact keepsCommand_storeFault
  | writeCompletion => exact keepsCommand_writeCompletion
  | stall | holdOk | holdNo | claimOk | claimNo | postOk | postNo | loadOk | loadNo | returnOk | returnNo | balance
  | inquireNo | tallyOpen | tally | receiveQueueEntry => exact keepsCommand_completeFrame ..
  | hold | claim | drop | post | loadFrame | returnFrame | inquireFrame | holdExpiry =>
    simp only [exec, execHold, execClaim, execDrop, execPost, execLoadFrame, execReturnFrame, execInquireFrame,
      execHoldExpiry]
    (repeat' split) <;> exact keepsCommand_same (by simp)
  | replyWindowExpiry | slotHoldExpiry | offlineDecision | slotDeferredEntry | actorFiling | noticeEntry =>
    simp only [exec, execReplyWindowExpiry, execSlotHoldExpiry, execOfflineDecision, execSlotDeferredEntry,
      execActorFiling, execNoticeEntry]
    (repeat' split) <;> exact keepsCommand_same (by simp)
  | dqWindowExpiry | dqPendingStep | stuckTimerExpiry | bodyClash =>
    simp only [exec, execDqWindowExpiry, execDqPendingStep, execStuckTimerExpiry, execBodyClash]
    (repeat' split) <;> exact keepsCommand_same (by simp)
  | tallyStep | receptionStep | cutShortStep =>
    simp only [exec, execTallyStep, execReceptionStep, execCutShortStep]
    (repeat' split) <;> exact keepsCommand_same (by simp)
  | forwarderChoice | roundOpening | payoutRecord | tallyOpenEntry | computationCompletion | frameStart | arbitrationLost
  | frameSentWhole =>
    simp only [exec, execForwarderChoice, execRoundOpening, execPayoutRecord, execTallyOpenEntry, execComputationCompletion,
      execFrameStart, execArbitrationLost, execFrameSentWhole]
    (repeat' split) <;> exact keepsCommand_same rfl
  | backoffExpiry | quietTimerExpiry | tallyTimerExpiry | idleGap | bodyLengthDiscard | startSymbol =>
    exact keepsCommand_ite (keepsCommand_same rfl) (keepsCommand_same rfl)

theorem lawfulCommand_of_exec {c : Instr} {t : State} (h : exec c s = .next t) (hs : s.tp.command.Lawful) :
    t.tp.command.Lawful := by
  obtain ⟨u, hu, hk⟩ := exec_keepsCommand c s
  cases h.symm.trans hu
  exact hk hs

end Exec

theorem lawfulCommand_of_step {s t : State} (h : step s = .next t) (hs : s.tp.command.Lawful) : t.tp.command.Lawful := by
  unfold step at h
  split at h
  · exact lawfulCommand_of_exec h hs
  · unfold idle at h
    split at h
    · split at h
      · cases h
        rwa [command_clock]
      · cases h
        exact hs
    · exact lawfulCommand_of_exec h hs
    · exact lawfulCommand_of_exec h hs

/-- Settles O9: what every command keeps of the command view, a period of the clock included. -/
theorem stepKeepsCommandState : Obligations.StepKeepsCommandState := fun s t hs h =>
  (commandLaw_iff t).2 (lawfulCommand_of_step h ((commandLaw_iff s).1 hs))

end Sys2Proof.Machine
